-- ==== Sys2Proof/Word.lean ====
section
/-! DEFINITION. The word and the byte of the block: every register, operand, result and table entry is an unsigned
32-bit value (00_scope.md R10), and the vector RAM is made of bytes (10_state.md R36). -/

namespace Sys2Proof

/-- A 32-bit register, operand, result or table entry (00_scope.md R10). -/
abbrev Word := BitVec 32

/-- A byte of the vector RAM, or the operand of POPCNT8 and WRBYTE. -/
abbrev Byte := BitVec 8

end Sys2Proof
end

