-- ==== Sys2Proof/Config.lean ====
section
/-! DEFINITION. What an implementation fixes: the OPEN parameters of 00_scope.md R6 (carried by every state as the
read-only registers MAXBYTES, LBCAP and SBCAP; log entry 1), the constants, and the free values the spec leaves open. -/

namespace Sys2Proof

/-- The OPEN parameters of one device (00_scope.md R6). The bounds R6 puts on them are `Params.WF`.
The three capacities are words because the registers MAXBYTES, LBCAP and SBCAP equal them (10_state.md R34). -/
structure Params where
  /-- BASE_ADDR, the host address of the register window. -/
  baseAddr : Nat
  /-- MAX_BYTES, the byte capacity of the vector RAM. -/
  maxBytes : Word
  /-- LB_CAP, the entries of the large-block table. -/
  lbCap : Word
  /-- SB_CAP, the entries of the small-block table. -/
  sbCap : Word
  deriving DecidableEq, Repr

namespace Config

/-- The example instance of 00_scope.md R6, on which 95_test_vectors.md rests. BASE_ADDR 0: DESIGN CHOICE (log entry 1),
safe: the block cannot observe it. The choice of the example instance: DESIGN CHOICE (log entry 1), unsafe for a claim
about runs from `State.reset` alone; claims over all states hold for every device. -/
def exampleParams : Params :=
  { baseAddr := 0, maxBytes := 4096#32, lbCap := 129#32, sbCap := 1025#32 }

/-- The constant of the ID register (10_state.md R33). -/
def idValue : Word := 0x52534931#32

/-- The reset value of LBSCFG, ZSA's default `largeBlockSize` (10_state.md R26, 00_scope.md R6). -/
def defaultLargeBlockSize : Word := 256#32

/-- The reset value of SBSCFG, ZSA's default `smallBlockSize` (10_state.md R26, 00_scope.md R6). -/
def defaultSmallBlockSize : Word := 32#32

/-- What a byte of the vector RAM that nothing has written reads as: 0x00, the reset contents (10_state.md R36, R42). -/
def unlistedByte : Byte := 0#8

/-- What a large-block entry that holds no defined value reads as: a free value (10_state.md R39, 93 I3; log entry 5). -/
opaque undefinedLbEntry : Nat → BitVec 32

/-- What a small-block entry that holds no defined value reads as: a free value (10_state.md R39, 93 I3; log entry 5). -/
opaque undefinedSbEntry : Nat → BitVec 32

end Config

end Sys2Proof
end

