-- ==== Sys2Proof/Machine/Agents.lean ====
section
/-! DEFINITION. The agents that act on the block (00_scope.md R8) and what each may do in one turn: the host's accesses
to the register window, the engine's step and the reset input; and the host's own syntax (30_encoding.md R88, R89). -/

namespace Sys2Proof.Machine

/-- The sixteen registers of the window (10_state.md R22). -/
inductive HostReg where
  | cmd | opa | opb | lbscfg | sbscfg | result | status | ctrl
  | lenbytes | nbits | lbs | sbs | id | maxbytes | lbcap | sbcap
  deriving DecidableEq, Repr

/-- What a host access does to the register it names. -/
inductive HostAction where
  | read
  | write (value : Word)
  deriving DecidableEq, Repr

/-- One access of a bus master: a host address, a width in bytes and an action. Which accesses the block defines is
20_memory.md R64 (`HostAccess.WF`). -/
structure HostAccess where
  addr   : Nat
  width  : Nat
  action : HostAction
  deriving DecidableEq, Repr

/-- One turn of one agent (00_scope.md R8, 60_exceptions.md R213: turns are interleaved, never simultaneous). -/
inductive Turn where
  /-- A host access. -/
  | host (access : HostAccess)
  /-- The engine may take its step, if it has one. -/
  | engine
  /-- The reset input is asserted (70_reset_and_hazards.md R240). -/
  | resetAssert
  /-- The reset input has been deasserted and the reset sequence has finished (R240). -/
  | resetDone
  deriving DecidableEq, Repr

/-- A line of a host program in the syntax of 30_encoding.md R88 and R89. -/
inductive HostOp where
  | wr (reg : HostReg) (value : Word)
  | rd (reg : HostReg)
  | wait
  | popcnt8 (a : Word)
  | popcnt32 (a : Word)
  | wrbyte (addr data : Word)
  | rdbyte (addr : Word)
  | clear
  | create (len : Word)
  | createSized (len lbs sbs : Word)
  | build
  | rank (index bit : Word)
  | select (n bit : Word)
  | rdlb (k : Word)
  | rdsb (j : Word)
  | load (addr : Word) (bytes : List Word)
  deriving DecidableEq, Repr

end Sys2Proof.Machine
end

