-- ==== Sys2Proof/Machine/State.lean ====
section
/-! DEFINITION. The state of one RankSelectIndex block (10_state.md R20) and of the agents around it, as plain data; the
reasons a step can stop; and the state after reset (R42). -/

namespace Sys2Proof.Machine

/-- STATUS.STATE, the index state (10_state.md R28). -/
inductive IndexState where
  | empty
  | created
  | built
  deriving DecidableEq, Repr

/-- The error kinds (60_exceptions.md R201). -/
inductive ErrorKind where
  | invalidArgument
  | outOfRange
  | invalidState
  | illegalCommand
  deriving DecidableEq, Repr

/-- The error causes (60_exceptions.md R202), in the order of their numbers 1 to 14. -/
inductive ErrorCause where
  | badBit
  | badBlockConfig
  | lengthCapacity
  | tableCapacity
  | badByteValue
  | rankIndex
  | selectOrdinal
  | byteAddress
  | tableIndex
  | notCreated
  | notBuilt
  | vectorImmutable
  | unknownOpcode
  | reservedBits
  deriving DecidableEq, Repr

/-- The vector RAM: the bytes that are not `Config.unlistedByte`, by rising address (`Memory.WF`). -/
abbrev Memory := List Host.Cell

/-- There is no fault: every command ends in exactly one completion, which is a next state (60_exceptions.md R200;
log entry 10). -/
inductive Fault where
  deriving DecidableEq, Repr

/-- The accesses and forms the spec gives no meaning. -/
inductive Refusal where
  /-- Raised by no instruction: every command has its meaning. Safe. -/
  | notModelled (mnemonic : String)
  /-- Raised by a host turn whose access is not of one whole 32-bit register at an offset that is a multiple of 4
  (20_memory.md R64: a model refuses it). Safe. -/
  | undefinedHostAccess
  /-- Raised by a host turn while reset is asserted or its sequence has not finished (70_reset_and_hazards.md R240,
  93 I5: refuse). Safe. -/
  | hostAccessDuringReset
  deriving DecidableEq, Repr

/-- The state of the block (10_state.md R20), with the OPEN parameters of the device, and of the agents around it. -/
structure State where
  /-- MAXBYTES, LBCAP, SBCAP (R34) and BASE_ADDR (R22): constant. -/
  params : Params
  /-- CMD, the last accepted command word (R23). -/
  cmd : Word
  /-- OPA (R24). -/
  opa : Word
  /-- OPB (R25). -/
  opb : Word
  /-- LBSCFG (R26). -/
  lbscfg : Word
  /-- SBSCFG (R26). -/
  sbscfg : Word
  /-- RESULT (R29). -/
  result : Word
  /-- STATUS.BUSY, the busy latch (R27, R40). -/
  busy : Bool
  /-- STATUS.DONE (R27). -/
  done : Bool
  /-- STATUS.OVERRUN (R27). -/
  overrun : Bool
  /-- STATUS.STATE (R27, R28). -/
  index : IndexState
  /-- STATUS.ERRCODE and STATUS.ERRCAUSE: the cause of the last completed command's error, none if it succeeded
  (R27; log entry 7). -/
  error : Option ErrorCause
  /-- CTRL.IE (R30). -/
  ie : Bool
  /-- LENBYTES (R31). -/
  lenbytes : Word
  /-- NBITS (R31). -/
  nbits : Word
  /-- LBS (R32). -/
  lbs : Word
  /-- SBS (R32). -/
  sbs : Word
  /-- The vector RAM (R36). -/
  ram : Memory
  /-- The defined entries of the large-block table, from entry 0 (R37; log entry 5). -/
  lb : List Word
  /-- The defined entries of the small-block table, from entry 0 (R38; log entry 5). -/
  sb : List Word
  /-- The model's own: reset is asserted or its sequence has not finished (R240; log entry 4). -/
  inReset : Bool
  /-- The model's own: the turns still to come, the next first (log entry 2). -/
  schedule : List Turn
  /-- The model's own: the values host reads have returned, latest first (log entry 3). -/
  readLog : List Word
  deriving DecidableEq, Repr

/-- The state of a device with parameters `p` after reset has finished (10_state.md R42, 70_reset_and_hazards.md R240). -/
def State.resetFor (p : Params) : State :=
  { params := p
    cmd := 0#32, opa := 0#32, opb := 0#32
    lbscfg := Config.defaultLargeBlockSize, sbscfg := Config.defaultSmallBlockSize
    result := 0#32
    busy := false, done := false, overrun := false, index := .empty, error := none, ie := false
    lenbytes := 0#32, nbits := 0#32, lbs := 0#32, sbs := 0#32
    ram := [], lb := [], sb := []
    inReset := false, schedule := [], readLog := [] }

/-- The machine right after reset, on the spec's example instance (00_scope.md R6; log entry 1). -/
def State.reset : State := State.resetFor Config.exampleParams

end Sys2Proof.Machine
end

