-- ==== Sys2Proof/Machine/Ops.lean ====
section
/-! DEFINITION. The operations the commands share: the vector RAM, the tables, and the three transitions of the command
protocol (acceptance, successful completion, error completion). -/

namespace Sys2Proof.Machine

/-! ### The vector RAM -/

/-- `MemRead(a, 1)` of a byte list (00_scope.md R13): what is listed at `a`, else `Config.unlistedByte`. -/
def Memory.read : Memory → Nat → Byte
  | [], _ => Config.unlistedByte
  | (k, w) :: rest, a => if k = a then w else Memory.read rest a

/-- `MemWrite(a, 1, v)` (00_scope.md R13), keeping the canonical form `Memory.WF`. -/
def Memory.write : Memory → Nat → Byte → Memory
  | [], a, v => if v = Config.unlistedByte then [] else [(a, v)]
  | (k, w) :: rest, a, v =>
    if a < k then
      if v = Config.unlistedByte then (k, w) :: rest else (a, v) :: (k, w) :: rest
    else if a = k then
      if v = Config.unlistedByte then rest else (a, v) :: rest
    else (k, w) :: Memory.write rest a v

/-- The canonical form: addresses strictly rising, no entry equal to what an unlisted address reads as. -/
abbrev Memory.WF (m : Memory) : Prop :=
  m.Pairwise (fun x y => x.1 < y.1) ∧ ∀ c ∈ m, c.2 ≠ Config.unlistedByte

/-- No byte is listed at or above `n`. -/
abbrev Memory.Below (m : Memory) (n : Nat) : Prop := ∀ c ∈ m, c.1 < n

/-- The byte at vector RAM address `a`. -/
def State.readByte (s : State) (a : Nat) : Byte := s.ram.read a

/-- The block with byte `v` at vector RAM address `a`. -/
def State.writeByte (a : Nat) (v : Byte) (s : State) : State := { s with ram := s.ram.write a v }

/-- Every byte of the vector RAM at 0 (41_vector_memory.md R123). -/
def State.zeroRam (s : State) : State := { s with ram := [] }

/-! ### The tables -/

/-- `LB[k]`: a defined entry's value, else a free value (10_state.md R37, R39). -/
def State.lbEntry (s : State) (k : Nat) : Word := s.lb.getD k (Config.undefinedLbEntry k)

/-- `SB[j]`: a defined entry's value, else a free value (10_state.md R38, R39). -/
def State.sbEntry (s : State) (j : Nat) : Word := s.sb.getD j (Config.undefinedSbEntry j)

/-- Every LB[k] and SB[j] becomes undefined (42_index_build.md R149). -/
def State.forgetTables (s : State) : State := { s with lb := [], sb := [] }

/-! ### The command protocol -/

/-- Command acceptance (60_exceptions.md R205). The operands are latched where they stand: OPA, OPB, LBSCFG and SBSCFG
cannot change while BUSY = 1 (10_state.md R40, 30_encoding.md R85; log entry 6). -/
def State.accept (w : Word) (s : State) : State := { s with cmd := w, busy := true, done := false }

/-- Successful completion `complete(v)` (60_exceptions.md R206). -/
def State.complete (v : Word) (s : State) : State :=
  { s with result := v, error := none, busy := false, done := true }

/-- Error completion `raise Error(kind, cause)` (60_exceptions.md R207); the kind goes with the cause (R202). This is the
one way a command's exception is taken; there is no return from it (R210). -/
def State.raiseError (c : ErrorCause) (s : State) : State :=
  { s with error := some c, busy := false, done := true }

/-- A host write dropped because BUSY = 1 (60_exceptions.md R212). -/
def State.dropWrite (s : State) : State := { s with overrun := true }

/-! ### Reset -/

/-- The reset input is asserted: the command in progress is aborted and every piece of the block's state takes its reset
value (70_reset_and_hazards.md R240). What stands outside the block, the turns to come and the values the host has read,
is kept. -/
def State.assertReset (s : State) : State :=
  { State.resetFor s.params with inReset := true, schedule := s.schedule, readLog := s.readLog }

/-- Reset has been deasserted and its sequence has finished (70_reset_and_hazards.md R240). -/
def State.finishReset (s : State) : State := { s with inReset := false }

end Sys2Proof.Machine
end

