-- ==== Sys2Proof/Machine/BitVector.lean ====
section
/-! DEFINITION. The bit-vector as a view of the vector RAM (20_memory.md R61, R62), the derived functions of 00_scope.md
R13 and R14, and the geometry of an index (42_index_build.md R140, R144). -/

namespace Sys2Proof.Machine

/-- `bit(i)`: position `i` is bit 7 − (i mod 8), 7 the most significant, of the byte at floor(i / 8) (20_memory.md R61). -/
def State.bit (s : State) (i : Nat) : Bool := (s.readByte (i / 8)).getLsbD (7 - i % 8)

/-- The number of the `k` positions from `lo` on whose bit is `b`. -/
def State.countFrom (s : State) (b : Bool) (lo : Nat) : Nat → Nat
  | 0 => 0
  | k + 1 => State.countFrom s b lo k + (if s.bit (lo + k) = b then 1 else 0)

/-- `count(b, lo, hi)`: the number of positions i with lo ≤ i < hi and bit(i) = b (00_scope.md R13). -/
def State.count (s : State) (b : Bool) (lo hi : Nat) : Nat := s.countFrom b lo (hi - lo)

/-- `ones(lo, hi) = count(1, lo, hi)` (00_scope.md R14). -/
def State.ones (s : State) (lo hi : Nat) : Nat := s.count true lo hi

/-- `rank_b(i)`: ones(0, i) for b = 1, the complement i − ones(0, i) for b = 0 (00_scope.md R14, 43_rank_select.md R170). -/
def State.rank (s : State) (b : Bool) (i : Nat) : Nat := if b then s.ones 0 i else i - s.ones 0 i

/-- N, the bit length of the index (42_index_build.md R140). -/
def State.bitLen (s : State) : Nat := s.nbits.toNat

/-- `total_b = rank_b(N)` (00_scope.md R14). -/
def State.total (s : State) (b : Bool) : Nat := s.rank b s.bitLen

/-- `select_b(n) = min { p : 0 ≤ p < N and count(b, 0, p + 1) = n }` (00_scope.md R14, 43_rank_select.md R173), for
1 ≤ n ≤ total_b; SELECT asks for no other n. -/
def State.selectPos (s : State) (b : Bool) (n : Nat) : Nat :=
  (List.range s.bitLen).findIdx fun p => s.count b 0 (p + 1) == n

/-- floor(N / LBS), the last large-block entry (42_index_build.md R144). In EMPTY, where LBS = 0, no rule forms it
(43_rank_select.md R176; log entry 11). -/
def State.lastLb (s : State) : Nat := s.bitLen / s.lbs.toNat

/-- floor(N / SBS), the last small-block entry (42_index_build.md R144; log entry 11). -/
def State.lastSb (s : State) : Nat := s.bitLen / s.sbs.toNat

/-- r = LBS / SBS, small blocks per large block (42_index_build.md R144). -/
def State.blockRatio (s : State) : Nat := s.lbs.toNat / s.sbs.toNat

end Sys2Proof.Machine
end

