-- ==== Sys2Proof/Machine/Operands.lean ====
section
/-! DEFINITION. The operand forms of 30_encoding.md R84. Every operand is a whole 32-bit register, unsigned; a value too
large for its use is an error of the command, never truncated. -/

namespace Sys2Proof.Machine

/-- A byte operand (OPA of POPCNT8, OPB of WRBYTE): none above 0xFF (40_popcount.md R102, 41_vector_memory.md R121). -/
def byteOperand (v : Word) : Option Byte := if v.toNat ≤ 0xFF then some (v.setWidth 8) else none

/-- A `bit` operand (OPB of RANK and SELECT): none outside 0 and 1 (10_state.md R25, 43_rank_select.md R170). -/
def bitOperand (v : Word) : Option Bool :=
  if v = 0#32 then some false else if v = 1#32 then some true else none

/-- A byte address (OPA of WRBYTE and RDBYTE): none at or above MAX_BYTES (41_vector_memory.md R121, R122). -/
def byteAddressOperand (s : State) (v : Word) : Option Nat :=
  if v.toNat < s.params.maxBytes.toNat then some v.toNat else none

/-- A count or position as a register value; every one the block forms is below 2^32 (43_rank_select.md R176). -/
def toWord (n : Nat) : Word := BitVec.ofNat 32 n

end Sys2Proof.Machine
end

