-- ==== Sys2Proof/Machine/IndexBuild.lean ====
section
/-! DEFINITION. The commands that create, build and read out an index: CREATE, BUILD, RDLB and RDSB
(42_index_build.md). -/

namespace Sys2Proof.Machine

/-- `lbs` is a positive multiple of `sbs` (42_index_build.md R142). -/
def blockSizesValid (lbs sbs : Word) : Bool :=
  1 ≤ sbs.toNat && 1 ≤ lbs.toNat && lbs.toNat % sbs.toNat == 0

/-- The two tables of an index of `len` bytes fit (42_index_build.md R143). -/
def tablesFit (p : Params) (len lbs sbs : Word) : Bool :=
  8 * len.toNat / lbs.toNat + 1 ≤ p.lbCap.toNat && 8 * len.toNat / sbs.toNat + 1 ≤ p.sbCap.toNat

/-- A new index over the first `len` bytes: the geometry registers written, the tables undefined, STATE CREATED
(42_index_build.md R141). -/
def State.newIndex (len lbs sbs : Word) (s : State) : State :=
  { s.forgetTables with
    lenbytes := len, nbits := toWord (8 * len.toNat), lbs := lbs, sbs := sbs, index := .created }

/-- CREATE (42_index_build.md R141), with its checks in the order of 60_exceptions.md R204. -/
def execCreate (s : State) : Host.Outcome State Fault Refusal :=
  if ¬ blockSizesValid s.lbscfg s.sbscfg then .next (s.raiseError .badBlockConfig)
  else if s.params.maxBytes.toNat < s.opa.toNat then .next (s.raiseError .lengthCapacity)
  else if ¬ tablesFit s.params s.opa s.lbscfg s.sbscfg then .next (s.raiseError .tableCapacity)
  else .next ((s.newIndex s.opa s.lbscfg s.sbscfg).complete (toWord (8 * s.opa.toNat)))

/-- The value BUILD gives LB[k] (42_index_build.md R145). -/
def State.lbSnapshot (s : State) (k : Nat) : Nat := s.ones 0 (k * s.lbs.toNat)

/-- The value BUILD gives SB[j] (42_index_build.md R146). -/
def State.sbSnapshot (s : State) (j : Nat) : Nat :=
  s.ones (j / s.blockRatio * s.lbs.toNat) (j * s.sbs.toNat)

/-- Both tables filled from the bit-vector, STATE BUILT (42_index_build.md R147). -/
def State.fillTables (s : State) : State :=
  { s with
    lb := (List.range (s.lastLb + 1)).map fun k => toWord (s.lbSnapshot k)
    sb := (List.range (s.lastSb + 1)).map fun j => toWord (s.sbSnapshot j)
    index := .built }

/-- BUILD (42_index_build.md R147). -/
def execBuild (s : State) : Host.Outcome State Fault Refusal :=
  if s.index = .empty then .next (s.raiseError .notCreated)
  else .next (s.fillTables.complete (toWord (s.ones 0 s.bitLen)))

/-- RDLB (42_index_build.md R150). -/
def execRdlb (s : State) : Host.Outcome State Fault Refusal :=
  if s.index ≠ .built then .next (s.raiseError .notBuilt)
  else if s.lastLb < s.opa.toNat then .next (s.raiseError .tableIndex)
  else .next (s.complete (s.lbEntry s.opa.toNat))

/-- RDSB (42_index_build.md R151). -/
def execRdsb (s : State) : Host.Outcome State Fault Refusal :=
  if s.index ≠ .built then .next (s.raiseError .notBuilt)
  else if s.lastSb < s.opa.toNat then .next (s.raiseError .tableIndex)
  else .next (s.complete (s.sbEntry s.opa.toNat))

end Sys2Proof.Machine
end

