-- ==== Sys2Proof/Machine/Popcount.lean ====
section
/-! DEFINITION. The PopcountTable, the 32-bit popcount and the commands POPCNT8 and POPCNT32 (40_popcount.md). -/

namespace Sys2Proof.Machine

/-- POPCNT_LUT, the constant table of 40_popcount.md R100: a row for each high nibble, a column for each low nibble. -/
def popcntLut : List Nat :=
  [0, 1, 1, 2, 1, 2, 2, 3, 1, 2, 2, 3, 2, 3, 3, 4] ++
  [1, 2, 2, 3, 2, 3, 3, 4, 2, 3, 3, 4, 3, 4, 4, 5] ++
  [1, 2, 2, 3, 2, 3, 3, 4, 2, 3, 3, 4, 3, 4, 4, 5] ++
  [2, 3, 3, 4, 3, 4, 4, 5, 3, 4, 4, 5, 4, 5, 5, 6] ++
  [1, 2, 2, 3, 2, 3, 3, 4, 2, 3, 3, 4, 3, 4, 4, 5] ++
  [2, 3, 3, 4, 3, 4, 4, 5, 3, 4, 4, 5, 4, 5, 5, 6] ++
  [2, 3, 3, 4, 3, 4, 4, 5, 3, 4, 4, 5, 4, 5, 5, 6] ++
  [3, 4, 4, 5, 4, 5, 5, 6, 4, 5, 5, 6, 5, 6, 6, 7] ++
  [1, 2, 2, 3, 2, 3, 3, 4, 2, 3, 3, 4, 3, 4, 4, 5] ++
  [2, 3, 3, 4, 3, 4, 4, 5, 3, 4, 4, 5, 4, 5, 5, 6] ++
  [2, 3, 3, 4, 3, 4, 4, 5, 3, 4, 4, 5, 4, 5, 5, 6] ++
  [3, 4, 4, 5, 4, 5, 5, 6, 4, 5, 5, 6, 5, 6, 6, 7] ++
  [2, 3, 3, 4, 3, 4, 4, 5, 3, 4, 4, 5, 4, 5, 5, 6] ++
  [3, 4, 4, 5, 4, 5, 5, 6, 4, 5, 5, 6, 5, 6, 6, 7] ++
  [3, 4, 4, 5, 4, 5, 5, 6, 4, 5, 5, 6, 5, 6, 6, 7] ++
  [4, 5, 5, 6, 5, 6, 6, 7, 5, 6, 6, 7, 6, 7, 7, 8]

/-- `POPCNT_LUT[b]` (40_popcount.md R100). -/
def popcount8 (b : Byte) : Nat := popcntLut.getD b.toNat 0

/-- One adder stage of the reduction tree: the sums of neighbouring pairs (40_popcount.md R101). -/
def pairSums : List Nat → List Nat
  | x :: y :: rest => (x + y) :: pairSums rest
  | _ => []

/-- The 1-bit fields c0[i] = w[i] (40_popcount.md R101). -/
def bitFields (w : Word) : List Nat := (List.range 32).map fun i => (w.getLsbD i).toNat

/-- The fields of a stage of the tree: `popcountStage w s` lists c_s[0], c_s[1], … (40_popcount.md R101). -/
def popcountStage (w : Word) : Nat → List Nat
  | 0 => bitFields w
  | s + 1 => pairSums (popcountStage w s)

/-- `popcount32(w) = c5[0]` (40_popcount.md R101). -/
def popcount32 (w : Word) : Nat := (popcountStage w 5).headD 0

/-- POPCNT8 (40_popcount.md R102). -/
def execPopcnt8 (s : State) : Host.Outcome State Fault Refusal :=
  match byteOperand s.opa with
  | none => .next (s.raiseError .badByteValue)
  | some a => .next (s.complete (toWord (popcount8 a)))

/-- POPCNT32 (40_popcount.md R103). -/
def execPopcnt32 (s : State) : Host.Outcome State Fault Refusal :=
  .next (s.complete (toWord (popcount32 s.opa)))

end Sys2Proof.Machine
end

