-- ==== Sys2Proof/Machine/RankSelect.lean ====
section
/-! DEFINITION. The queries RANK and SELECT (43_rank_select.md), by the definitions of 00_scope.md R14. -/

namespace Sys2Proof.Machine

/-- RANK (43_rank_select.md R170), with its checks in the order of 60_exceptions.md R204. -/
def execRank (s : State) : Host.Outcome State Fault Refusal :=
  if s.index ≠ .built then .next (s.raiseError .notBuilt)
  else match bitOperand s.opb with
    | none => .next (s.raiseError .badBit)
    | some b =>
      if s.bitLen < s.opa.toNat then .next (s.raiseError .rankIndex)
      else .next (s.complete (toWord (s.rank b s.opa.toNat)))

/-- SELECT (43_rank_select.md R173), with its checks in the order of 60_exceptions.md R204. -/
def execSelect (s : State) : Host.Outcome State Fault Refusal :=
  if s.index ≠ .built then .next (s.raiseError .notBuilt)
  else match bitOperand s.opb with
    | none => .next (s.raiseError .badBit)
    | some b =>
      if s.opa = 0#32 ∨ s.total b < s.opa.toNat then .next (s.raiseError .selectOrdinal)
      else .next (s.complete (toWord (s.selectPos b s.opa.toNat)))

end Sys2Proof.Machine
end

