-- ==== Sys2Proof/Machine/VectorMemory.lean ====
section
/-! DEFINITION. The vector memory commands WRBYTE, RDBYTE and CLEAR (41_vector_memory.md). -/

namespace Sys2Proof.Machine

/-- WRBYTE (41_vector_memory.md R121), with its checks in the order of 60_exceptions.md R204. -/
def execWrbyte (s : State) : Host.Outcome State Fault Refusal :=
  if s.index ≠ .empty then .next (s.raiseError .vectorImmutable)
  else match byteOperand s.opb with
    | none => .next (s.raiseError .badByteValue)
    | some d =>
      match byteAddressOperand s s.opa with
      | none => .next (s.raiseError .byteAddress)
      | some a => .next ((s.writeByte a d).complete 0#32)

/-- RDBYTE (41_vector_memory.md R122). -/
def execRdbyte (s : State) : Host.Outcome State Fault Refusal :=
  match byteAddressOperand s s.opa with
  | none => .next (s.raiseError .byteAddress)
  | some a => .next (s.complete ((s.readByte a).setWidth 32))

/-- The index discarded: the geometry registers at 0, the tables undefined, STATE EMPTY (41_vector_memory.md R123). -/
def State.discardIndex (s : State) : State :=
  { s.forgetTables with lenbytes := 0#32, nbits := 0#32, lbs := 0#32, sbs := 0#32, index := .empty }

/-- CLEAR (41_vector_memory.md R123). -/
def execClear (s : State) : Host.Outcome State Fault Refusal :=
  .next (s.zeroRam.discardIndex.complete 0#32)

end Sys2Proof.Machine
end

