-- ==== Sys2Proof/Syntax.lean ====
section
/-! DEFINITION. The commands of the block, its instructions: one constructor for each row of spec/opcode_table.json
(30_encoding.md R83). A command word has no operand field (R80): the operands are whole registers (R84). -/

namespace Sys2Proof

/-- The eleven commands of the RSI command set, revision 1 (30_encoding.md R83). -/
inductive Instr where
  /-- POPCNT8, 40_popcount.md R102. -/
  | popcnt8
  /-- POPCNT32, 40_popcount.md R103. -/
  | popcnt32
  /-- WRBYTE, 41_vector_memory.md R121. -/
  | wrbyte
  /-- RDBYTE, 41_vector_memory.md R122. -/
  | rdbyte
  /-- CLEAR, 41_vector_memory.md R123. -/
  | clear
  /-- CREATE, 42_index_build.md R141. -/
  | create
  /-- BUILD, 42_index_build.md R147. -/
  | build
  /-- RANK, 43_rank_select.md R170. -/
  | rank
  /-- SELECT, 43_rank_select.md R173. -/
  | select
  /-- RDLB, 42_index_build.md R150. -/
  | rdlb
  /-- RDSB, 42_index_build.md R151. -/
  | rdsb
  deriving DecidableEq, Repr

end Sys2Proof
end

