-- ==== Sys2Proof/Machine/Dispatch.lean ====
section
/-! DEFINITION. The meaning of each command: one arm per row of spec/opcode_table.json. -/

namespace Sys2Proof.Machine

def exec (i : Instr) (s : State) : Host.Outcome State Fault Refusal :=
  match i with
  | .popcnt8 => Sys2Proof.Machine.execPopcnt8 s
  | .popcnt32 => Sys2Proof.Machine.execPopcnt32 s
  | .wrbyte => Sys2Proof.Machine.execWrbyte s
  | .rdbyte => Sys2Proof.Machine.execRdbyte s
  | .clear => Sys2Proof.Machine.execClear s
  | .create => Sys2Proof.Machine.execCreate s
  | .build => Sys2Proof.Machine.execBuild s
  | .rank => Sys2Proof.Machine.execRank s
  | .select => Sys2Proof.Machine.execSelect s
  | .rdlb => Sys2Proof.Machine.execRdlb s
  | .rdsb => Sys2Proof.Machine.execRdsb s

end Sys2Proof.Machine
end

