-- ==== Sys2Proof/Decode.lean ====
section
/-! DEFINITION. Decoding of a command word (30_encoding.md R80 to R83, R86), total on every 32-bit word and rejecting by
name, and after it the encoder. -/

namespace Sys2Proof

/-- Why a word names no command (30_encoding.md R81). -/
inductive DecodeError where
  /-- OPCODE is not assigned. -/
  | unknownOpcode
  /-- OPCODE is assigned and CMD[31:8] is not zero. -/
  | reservedBits
  deriving DecidableEq, Repr

/-- OPCODE = CMD[7:0] (30_encoding.md R80). -/
def opcodeField (w : Word) : BitVec 8 := w.extractLsb' 0 8

/-- The reserved field CMD[31:8] (30_encoding.md R80). -/
def reservedField (w : Word) : BitVec 24 := w.extractLsb' 8 24

/-- The assigned rows of the opcode map (30_encoding.md R83). -/
def opcodeMap : List (BitVec 8 × Instr) :=
  [(0x01#8, .popcnt8), (0x02#8, .popcnt32), (0x03#8, .wrbyte), (0x04#8, .rdbyte), (0x05#8, .clear),
   (0x06#8, .create), (0x07#8, .build), (0x08#8, .rank), (0x09#8, .select), (0x0A#8, .rdlb), (0x0B#8, .rdsb)]

/-- The command an opcode names; none for 0x00 and 0x0C to 0xFF (30_encoding.md R83, R86). -/
def lookupOpcode (op : BitVec 8) : Option Instr := opcodeMap.lookup op

/-- Decoding: the opcode first, then the reserved bits (30_encoding.md R81, R82). -/
def decode (w : Word) : Except DecodeError Instr :=
  match lookupOpcode (opcodeField w) with
  | none => .error .unknownOpcode
  | some i => if reservedField w = 0#24 then .ok i else .error .reservedBits

/-- The opcode of a command, from the map of 30_encoding.md R83. -/
def opcodeOf : Instr → BitVec 8
  | .popcnt8  => 0x01#8
  | .popcnt32 => 0x02#8
  | .wrbyte   => 0x03#8
  | .rdbyte   => 0x04#8
  | .clear    => 0x05#8
  | .create   => 0x06#8
  | .build    => 0x07#8
  | .rank     => 0x08#8
  | .select   => 0x09#8
  | .rdlb     => 0x0A#8
  | .rdsb     => 0x0B#8

/-- The command word: 24 zero bits, then the opcode (30_encoding.md R80, R83). -/
def encode (i : Instr) : Word := 0#24 ++ opcodeOf i

/-- The word of a table row: its `nbits` low bits, every bit above them zero. -/
def tableWord (nbits w : Nat) : Word := BitVec.ofNat 32 (w % 2 ^ nbits)

/-- The instruction the decoder reads from a word numbered as spec/opcode_table.json numbers it. A command is one 32-bit
register write, so no byte order enters (20_memory.md R65). -/
def decodeTableWord (nbits w : Nat) : Option Instr :=
  match decode (tableWord nbits w) with
  | .ok i => some i
  | .error _ => none

end Sys2Proof
end

