-- ==== Sys2Proof/Machine/Flags.lean ====
section
/-! DEFINITION. The status report: the numbers of the error kinds and causes (60_exceptions.md R201, R202), the STATUS
and CTRL registers as words (10_state.md R27, R30) and the interrupt output (R41). -/

namespace Sys2Proof.Machine

/-- The kind each cause goes with (60_exceptions.md R202). -/
def ErrorCause.kind : ErrorCause → ErrorKind
  | .badBit => .invalidArgument
  | .badBlockConfig => .invalidArgument
  | .lengthCapacity => .invalidArgument
  | .tableCapacity => .invalidArgument
  | .badByteValue => .invalidArgument
  | .rankIndex => .outOfRange
  | .selectOrdinal => .outOfRange
  | .byteAddress => .outOfRange
  | .tableIndex => .outOfRange
  | .notCreated => .invalidState
  | .notBuilt => .invalidState
  | .vectorImmutable => .invalidState
  | .unknownOpcode => .illegalCommand
  | .reservedBits => .illegalCommand

/-- The value of STATUS.ERRCODE for a kind (60_exceptions.md R201). -/
def ErrorKind.code : ErrorKind → BitVec 4
  | .invalidArgument => 1#4
  | .outOfRange => 2#4
  | .invalidState => 3#4
  | .illegalCommand => 4#4

/-- The value of STATUS.ERRCAUSE for a cause (60_exceptions.md R202). -/
def ErrorCause.code : ErrorCause → BitVec 8
  | .badBit => 1#8
  | .badBlockConfig => 2#8
  | .lengthCapacity => 3#8
  | .tableCapacity => 4#8
  | .badByteValue => 5#8
  | .rankIndex => 6#8
  | .selectOrdinal => 7#8
  | .byteAddress => 8#8
  | .tableIndex => 9#8
  | .notCreated => 10#8
  | .notBuilt => 11#8
  | .vectorImmutable => 12#8
  | .unknownOpcode => 13#8
  | .reservedBits => 14#8

/-- The cause with which a word that names no command completes (30_encoding.md R81). -/
def causeOfDecodeError : DecodeError → ErrorCause
  | .unknownOpcode => .unknownOpcode
  | .reservedBits => .reservedBits

/-- The value of STATUS.STATE (10_state.md R27, R28); 3 is never produced. -/
def IndexState.code : IndexState → BitVec 2
  | .empty => 0#2
  | .created => 1#2
  | .built => 2#2

/-- STATUS.ERRCODE (10_state.md R27): 0 if the last completed command succeeded. -/
def State.errcode (s : State) : BitVec 4 :=
  match s.error with
  | none => 0#4
  | some c => c.kind.code

/-- STATUS.ERRCAUSE (10_state.md R27): 0 if the last completed command succeeded. -/
def State.errcause (s : State) : BitVec 8 :=
  match s.error with
  | none => 0#8
  | some c => c.code

/-- STATUS.ERR equals (ERRCODE ≠ 0) (10_state.md R27). -/
def State.err (s : State) : Bool := s.errcode != 0#4

/-- STATUS as a host reads it (10_state.md R27), from bit 31 down. -/
def State.statusWord (s : State) : Word :=
  0#12 ++ s.errcause ++ s.errcode ++ 0#2 ++ s.index.code ++
    BitVec.ofBool s.overrun ++ BitVec.ofBool s.err ++ BitVec.ofBool s.done ++ BitVec.ofBool s.busy

/-- CTRL as a host reads it (10_state.md R30): IE, and 31 reserved zero bits. -/
def State.ctrlWord (s : State) : Word := 0#31 ++ BitVec.ofBool s.ie

/-- The interrupt output, IRQ = CTRL.IE AND STATUS.DONE (10_state.md R41). -/
def State.irq (s : State) : Bool := s.ie && s.done

/-- A host write to STATUS: DONE and OVERRUN are cleared where the value has a 1, every other bit is ignored
(10_state.md R27). Acknowledging a completion is this write with bit 1 set (60_exceptions.md R210). -/
def State.statusWrite (v : Word) (s : State) : State :=
  { s with
    done := s.done && !v.getLsbD 1
    overrun := s.overrun && !v.getLsbD 3 }

/-- A host write to CTRL stores IE; the reserved bits are ignored (10_state.md R30). -/
def State.ctrlWrite (v : Word) (s : State) : State := { s with ie := v.getLsbD 0 }

end Sys2Proof.Machine
end

