-- ==== Sys2Proof/WellFormed.lean ====
section
/-! DEFINITION. The checks on what comes from outside the block: a command (nothing to check), a device's parameters
(00_scope.md R6) and a host access (20_memory.md R64). -/

namespace Sys2Proof

/-- Every command is well formed: a command word has no operand field (30_encoding.md R80), and an operand too large for
its use is an error of the command (R84), not an ill-formed command. -/
def Instr.wf : Instr → Bool
  | .popcnt8 | .popcnt32 | .wrbyte | .rdbyte | .clear | .create | .build | .rank | .select | .rdlb | .rdsb => true

/-- The bounds 00_scope.md R6 puts on the parameters of a device. -/
abbrev Params.WF (p : Params) : Prop :=
  1 ≤ p.maxBytes.toNat ∧ p.maxBytes.toNat ≤ 0x1FFFFFFF ∧
  8 * p.maxBytes.toNat / 256 + 1 ≤ p.lbCap.toNat ∧
  8 * p.maxBytes.toNat / 32 + 1 ≤ p.sbCap.toNat ∧
  p.baseAddr % 0x100 = 0

namespace Machine

/-- The access touches the register window of a device (10_state.md R22, 20_memory.md R60): one of its bytes lies there, be
it that it starts below and reaches in; an access has a first byte whatever its width. DEDUCED (log entry 8): R64 speaks of accesses to the window, and the spec does not place
one that lies in it only in part. -/
abbrev HostAccess.InWindow (p : Params) (a : HostAccess) : Prop :=
  p.baseAddr < a.addr + max 1 a.width ∧ a.addr < p.baseAddr + 0x100

/-- The access is one the block defines: a whole 32-bit register at an offset that is a multiple of 4
(20_memory.md R64); an access that starts below the window is at no offset of it. -/
abbrev HostAccess.WF (p : Params) (a : HostAccess) : Prop :=
  a.width = 4 ∧ p.baseAddr ≤ a.addr ∧ (a.addr - p.baseAddr) % 4 = 0

end Machine

end Sys2Proof
end

