-- ==== Sys2Proof/Machine/HostPort.lean ====
section
/-! DEFINITION. The host's accesses to the register window (10_state.md R22 to R35, 20_memory.md R64 to R67). -/

namespace Sys2Proof.Machine

/-- The offset of a register in the window (10_state.md R22). -/
def HostReg.offset : HostReg → Nat
  | .cmd => 0x00
  | .opa => 0x04
  | .opb => 0x08
  | .lbscfg => 0x0C
  | .sbscfg => 0x10
  | .result => 0x14
  | .status => 0x18
  | .ctrl => 0x1C
  | .lenbytes => 0x20
  | .nbits => 0x24
  | .lbs => 0x28
  | .sbs => 0x2C
  | .id => 0x30
  | .maxbytes => 0x34
  | .lbcap => 0x38
  | .sbcap => 0x3C

/-- Every register of the window, in the order of 10_state.md R22. -/
def hostRegs : List HostReg :=
  [.cmd, .opa, .opb, .lbscfg, .sbscfg, .result, .status, .ctrl,
   .lenbytes, .nbits, .lbs, .sbs, .id, .maxbytes, .lbcap, .sbcap]

/-- The register at an offset; none at the reserved offsets (10_state.md R22, R35). -/
def regAtOffset (off : Nat) : Option HostReg := hostRegs.find? fun r => r.offset == off

/-- The value a host reads from a register (10_state.md R23 to R34). -/
def State.readReg (s : State) : HostReg → Word
  | .cmd => s.cmd
  | .opa => s.opa
  | .opb => s.opb
  | .lbscfg => s.lbscfg
  | .sbscfg => s.sbscfg
  | .result => s.result
  | .status => s.statusWord
  | .ctrl => s.ctrlWord
  | .lenbytes => s.lenbytes
  | .nbits => s.nbits
  | .lbs => s.lbs
  | .sbs => s.sbs
  | .id => Config.idValue
  | .maxbytes => s.params.maxBytes
  | .lbcap => s.params.lbCap
  | .sbcap => s.params.sbCap

/-- A host write to a register (20_memory.md R66): CMD and the operand registers are honoured only while BUSY = 0, else
dropped (60_exceptions.md R212); read-only registers ignore it. -/
def State.writeReg (s : State) (r : HostReg) (v : Word) : State :=
  match r with
  | .cmd => if s.busy then s.dropWrite else s.accept v
  | .opa => if s.busy then s.dropWrite else { s with opa := v }
  | .opb => if s.busy then s.dropWrite else { s with opb := v }
  | .lbscfg => if s.busy then s.dropWrite else { s with lbscfg := v }
  | .sbscfg => if s.busy then s.dropWrite else { s with sbscfg := v }
  | .status => s.statusWrite v
  | .ctrl => s.ctrlWrite v
  | .result | .lenbytes | .nbits | .lbs | .sbs | .id | .maxbytes | .lbcap | .sbcap => s

/-- The value a host reads at an offset of the window; reserved offsets read 0 (10_state.md R35). -/
def State.readOffset (s : State) (off : Nat) : Word :=
  match regAtOffset off with
  | some r => s.readReg r
  | none => 0#32

/-- A host write at an offset of the window; reserved offsets ignore it (10_state.md R35). -/
def State.writeOffset (s : State) (off : Nat) (v : Word) : State :=
  match regAtOffset off with
  | some r => s.writeReg r v
  | none => s

/-- The host receives the value of its read; the block does not change (20_memory.md R66; log entry 3). -/
def State.deliver (v : Word) (s : State) : State := { s with readLog := v :: s.readLog }

/-- One host access. Wholly outside the window it does not reach the block (10_state.md R22; log entry 8); during reset it is
refused (70_reset_and_hazards.md R240); of another width or alignment it is refused (20_memory.md R64); else it is one
atomic read or write of a register (R67). -/
def State.hostAccess (a : HostAccess) (s : State) : Host.Outcome State Fault Refusal :=
  if ¬ a.InWindow s.params then .next s
  else if s.inReset then .refused .hostAccessDuringReset
  else if ¬ a.WF s.params then .refused .undefinedHostAccess
  else match a.action with
    | .read => .next (s.deliver (s.readOffset (a.addr - s.params.baseAddr)))
    | .write v => .next (s.writeOffset (a.addr - s.params.baseAddr) v)

end Sys2Proof.Machine
end

