-- ==== Sys2Proof/Machine/Turns.lean ====
section
/-! DEFINITION. What one turn of each agent does (00_scope.md R8, 60_exceptions.md R213). -/

namespace Sys2Proof.Machine

/-- The engine's step on the accepted word: decode it and perform the command to completion, atomically; a word that
names no command completes with IllegalCommand (30_encoding.md R81, R86, 60_exceptions.md R206, R207). -/
def State.performCommand (s : State) : Host.Outcome State Fault Refusal :=
  match decode s.cmd with
  | .ok i => exec i s
  | .error e => .next (s.raiseError (causeOfDecodeError e))

/-- The engine has a step only while BUSY = 1 (00_scope.md R8); idle, the block holds all its state
(60_exceptions.md R218). -/
def State.engineTurn (s : State) : Host.Outcome State Fault Refusal :=
  if s.busy then s.performCommand else .next s

/-- One turn of one agent. -/
def State.runTurn (t : Turn) (s : State) : Host.Outcome State Fault Refusal :=
  match t with
  | .host a => s.hostAccess a
  | .engine => s.engineTurn
  | .resetAssert => .next s.assertReset
  | .resetDone => .next s.finishReset

/-- The state as the turn at the head of the schedule finds it: that turn has left the schedule. -/
def State.afterTurn (rest : List Turn) (s : State) : State := { s with schedule := rest }

/-- `w` stands in CMD as an accepted command, outside reset, and the next turn is the engine's. -/
def State.acceptedNext (w : Word) (s : State) : State :=
  { s.accept w with inReset := false, schedule := .engine :: s.schedule }

end Sys2Proof.Machine
end

