-- ==== Sys2Proof/Machine/Step.lean ====
section
/-! DEFINITION. One step of the machine: the next turn of the schedule; with no turn left the engine moves
(70_reset_and_hazards.md R251; log entry 2). -/

namespace Sys2Proof.Machine

/-- One step. -/
def step (s : State) : Host.Outcome State Fault Refusal :=
  match s.schedule with
  | [] => s.engineTurn
  | t :: rest => (s.afterTurn rest).runTurn t

/-- The block fetches no instruction (10_state.md R21): a command runs because a host wrote its word to CMD while
BUSY = 0. So the word stands in CMD as an accepted command (60_exceptions.md R205) and the next turn is the engine's. -/
def State.withFetchWord (s : State) (nbits w : Nat) : State := s.acceptedNext (tableWord nbits w)

end Sys2Proof.Machine
end

