-- ==== Sys2Proof/Machine/HostProgram.lean ====
section
/-! DEFINITION. The host's syntax (30_encoding.md R88) and its expansion into turns (R89). How long a command takes is
free (70_reset_and_hazards.md R250): `lat` polls of STATUS see BUSY = 1 before the engine moves (log entry 16). -/

namespace Sys2Proof.Machine

/-- `wr REG, value`: one host write (30_encoding.md R88). -/
def hostWr (p : Params) (r : HostReg) (v : Word) : Turn :=
  .host { addr := p.baseAddr + r.offset, width := 4, action := .write v }

/-- `rd REG`: one host read (30_encoding.md R88). -/
def hostRd (p : Params) (r : HostReg) : Turn :=
  .host { addr := p.baseAddr + r.offset, width := 4, action := .read }

/-- `wait`: read STATUS until BUSY is 0 (30_encoding.md R88); `lat` reads come before the engine's step. DESIGN CHOICE (log
entry 16): `lat` is chosen with the line and not by what the reads return, so where the block is already idle only
`lat = 0`, one read, is what R88's loop does. -/
def waitTurns (p : Params) (lat : Nat) : List Turn :=
  List.replicate lat (hostRd p .status) ++ [.engine, hostRd p .status]

/-- The command word written, then `wait`, then STATUS and RESULT read (30_encoding.md R89). -/
def issueTurns (p : Params) (lat : Nat) (i : Instr) : List Turn :=
  hostWr p .cmd (encode i) :: waitTurns p lat ++ [hostRd p .status, hostRd p .result]

/-- A command that reads OPA only. -/
def issueA (p : Params) (lat : Nat) (i : Instr) (a : Word) : List Turn :=
  hostWr p .opa a :: issueTurns p lat i

/-- A command that reads OPA and OPB. -/
def issueAB (p : Params) (lat : Nat) (i : Instr) (a b : Word) : List Turn :=
  hostWr p .opa a :: hostWr p .opb b :: issueTurns p lat i

/-- `load addr, b0, b1, …`: one `wrbyte` for each byte, at rising addresses (30_encoding.md R89). DESIGN CHOICE (log
entry 17): past 0xFFFFFFFF the next address is 0, where R89 gives `addr+k` no meaning. DESIGN CHOICE (log entry 16): its
bytes share one latency; a load whose bytes take different ones is a list of `wrbyte` lines. -/
def loadTurns (p : Params) (lat : Nat) : Word → List Word → List Turn
  | _, [] => []
  | a, b :: rest => issueAB p lat .wrbyte a b ++ loadTurns p lat (a + 1#32) rest

/-- The turns a line of a host program expands into (30_encoding.md R88, R89). DESIGN CHOICE (log entry 16): the engine has
its turn inside `wait` and the mnemonics, and none after a bare `wr` or `rd`; a program in which it completes between bare
lines says so with `ProgramLine.engine`. -/
def HostOp.expand (p : Params) (lat : Nat) : HostOp → List Turn
  | .wr r v => [hostWr p r v]
  | .rd r => [hostRd p r]
  | .wait => waitTurns p lat
  | .popcnt8 a => issueA p lat .popcnt8 a
  | .popcnt32 a => issueA p lat .popcnt32 a
  | .wrbyte a d => issueAB p lat .wrbyte a d
  | .rdbyte a => issueA p lat .rdbyte a
  | .clear => issueTurns p lat .clear
  | .create len => issueA p lat .create len
  | .createSized len lbs sbs => hostWr p .lbscfg lbs :: hostWr p .sbscfg sbs :: issueA p lat .create len
  | .build => issueTurns p lat .build
  | .rank i b => issueAB p lat .rank i b
  | .select n b => issueAB p lat .select n b
  | .rdlb k => issueA p lat .rdlb k
  | .rdsb j => issueA p lat .rdsb j
  | .load a bytes => loadTurns p lat a bytes

/-- A host program with the freedom that LATENCY leaves (70_reset_and_hazards.md R250, 92_eei_decisions.md D26): a line of
the host with a latency of its own, or a turn of the engine between two lines (log entry 16). -/
inductive ProgramLine where
  | host (lat : Nat) (op : HostOp)
  | engine
  deriving DecidableEq, Repr

/-- The turns of one line. -/
def ProgramLine.expand (p : Params) : ProgramLine → List Turn
  | .host lat op => op.expand p lat
  | .engine => [.engine]

/-- The turns of a host program. -/
def expandProgram (p : Params) (lines : List ProgramLine) : List Turn := lines.flatMap (ProgramLine.expand p)

end Sys2Proof.Machine
end

