-- ==== Sys2Proof/Machine/Mechanism.lean ====
section
/-! DEFINITION. The informative mechanisms ZSA describes (20_memory.md R63, 40_popcount.md R101 and R104, 42_index_build.md
R148, 43_rank_select.md R171, R174, R175). No command calls them: the results are defined by 00_scope.md R14 (92 D30). They
stand here so that claims can say that each gives the result of the command it describes. -/

namespace Sys2Proof.Machine

/-- A byte of the bit-vector, 0 beyond the last (20_memory.md R63). -/
def State.vectorByte (s : State) (a : Nat) : Byte := if a < s.lenbytes.toNat then s.readByte a else 0#8

/-- Word `w` of the bit-vector: position 32w + j at word bit 31 − j (20_memory.md R63). -/
def State.vectorWord (s : State) (w : Nat) : Word :=
  s.vectorByte (4 * w) ++ s.vectorByte (4 * w + 1) ++ s.vectorByte (4 * w + 2) ++ s.vectorByte (4 * w + 3)

/-- The bits of word `w` whose positions lie in [lo, hi): from `lo` on, and not from `hi` on. -/
def rangeMask (lo hi w : Nat) : Word :=
  (BitVec.allOnes 32 >>> (lo - 32 * w)) &&& ~~~(BitVec.allOnes 32 >>> (hi - 32 * w))

/-- `ones(lo, hi)` with `popcount32` over the masked words that cover [lo, hi) (42_index_build.md R148, 40_popcount.md
R104). -/
def State.onesByWords (s : State) (lo hi : Nat) : Nat :=
  ((List.range (hi / 32 + 1)).map fun w => popcount32 (s.vectorWord w &&& rangeMask lo hi w)).sum

/-- The sum of four PopcountTable lookups, one a byte (40_popcount.md R101, 90_conflicts.md C2). -/
def popcount32ByTable (w : Word) : Nat :=
  popcount8 (w.extractLsb' 0 8) + popcount8 (w.extractLsb' 8 8) +
    popcount8 (w.extractLsb' 16 8) + popcount8 (w.extractLsb' 24 8)

/-! ### The single-pass build (42_index_build.md R148) -/

/-- What the pass holds: ones(0, p), the ones since the last large-block boundary, and the entries written so far. -/
structure BuildPass where
  total : Nat
  run : Nat
  lb : List Nat
  sb : List Nat
  deriving DecidableEq, Repr

/-- The pass at small block `j`. -/
def State.buildPassStep (s : State) (b : BuildPass) (j : Nat) : BuildPass :=
  let p := j * s.sbs.toNat
  let b := if p % s.lbs.toNat = 0 then { b with lb := b.lb ++ [b.total], run := 0 } else b
  let c := s.ones p (min (p + s.sbs.toNat) s.bitLen)
  { b with sb := b.sb ++ [b.run], run := b.run + c, total := b.total + c }

/-- The single pass over the small blocks. -/
def State.buildPass (s : State) : BuildPass :=
  (List.range (s.lastSb + 1)).foldl s.buildPassStep { total := 0, run := 0, lb := [], sb := [] }

/-! ### Rank from the tables (43_rank_select.md R171) -/

/-- rank1(i) = LB[floor(i / LBS)] + SB[q] + ones(q × SBS, i), q = floor(i / SBS); rank0(i) = i − rank1(i). -/
def State.tableRank (s : State) (b : Bool) (i : Nat) : Nat :=
  let q := i / s.sbs.toNat
  let r1 := (s.lbEntry (i / s.lbs.toNat)).toNat + (s.sbEntry q).toNat + s.ones (q * s.sbs.toNat) i
  if b then r1 else i - r1

/-! ### Select from the tables (43_rank_select.md R174, R175) -/

/-- cL(k), the occurrences of `b` in [0, k × LBS) (43_rank_select.md R174). -/
def State.largeCount (s : State) (b : Bool) (k : Nat) : Nat :=
  if b then (s.lbEntry k).toNat else k * s.lbs.toNat - (s.lbEntry k).toNat

/-- cS(j), the occurrences of `b` in [floor(j / r) × LBS, j × SBS) (43_rank_select.md R174). -/
def State.smallCount (s : State) (b : Bool) (j : Nat) : Nat :=
  if b then (s.sbEntry j).toNat
  else (j * s.sbs.toNat - j / s.blockRatio * s.lbs.toNat) - (s.sbEntry j).toNat

/-- Binary search for the last place in [lo, hi) where `below` holds, given that it holds at `lo` and that the places
where it holds come first. -/
def lastBelow (below : Nat → Bool) : (fuel lo hi : Nat) → Nat
  | 0, lo, _ => lo
  | fuel + 1, lo, hi =>
    if hi - lo ≤ 1 then lo
    else if below ((lo + hi) / 2) then lastBelow below fuel ((lo + hi) / 2) hi
    else lastBelow below fuel lo ((lo + hi) / 2)

/-- count(b, lo, hi) where a position at or beyond N counts as not equal to `b` (43_rank_select.md R174). -/
def State.maskedCount (s : State) (b : Bool) (lo hi : Nat) : Nat := s.count b lo (min hi s.bitLen)

/-- Step 3 of 43_rank_select.md R174: whole words skipped while they hold fewer than `m` occurrences. -/
def State.skipWords (s : State) (b : Bool) : (fuel q m : Nat) → Nat × Nat
  | 0, q, m => (q, m)
  | fuel + 1, q, m =>
    if s.maskedCount b q (q + 32) < m then
      State.skipWords s b fuel (q + 32) (m - s.maskedCount b q (q + 32))
    else (q, m)

/-- One step of the in-word descent (43_rank_select.md R175): the offset found so far, and the target in the rest. -/
def State.descendStep (s : State) (b : Bool) (q : Nat) (pm : Nat × Nat) (width : Nat) : Nat × Nat :=
  let c := s.maskedCount b (q + pm.1) (q + pm.1 + width)
  if c < pm.2 then (pm.1 + width, pm.2 - c) else pm

/-- The in-word descent over sub-words of 16, 8, 4, 2 and 1 bits (43_rank_select.md R175). -/
def State.descend (s : State) (b : Bool) (q m : Nat) : Nat :=
  ([16, 8, 4, 2, 1].foldl (s.descendStep b q) (0, m)).1

/-- select_b(n) from the tables (43_rank_select.md R174). -/
def State.tableSelect (s : State) (b : Bool) (n : Nat) : Nat :=
  let k := lastBelow (fun k => s.largeCount b k < n) 33 0 (s.lastLb + 1)
  let m := n - s.largeCount b k
  let first := k * s.blockRatio
  let j := lastBelow (fun j => s.smallCount b j < m) 33 first (min (first + s.blockRatio - 1) s.lastSb + 1)
  let qm := s.skipWords b (s.sbs.toNat / 32 + 1) (j * s.sbs.toNat) (m - s.smallCount b j)
  qm.1 + s.descend b qm.1 qm.2

end Sys2Proof.Machine
end

