-- ==== Sys2Proof/Safety.lean ====
section
/-! DEFINITION. The terms claims use: what the spec says of the bit-vector and of a word, counted as the size of a set and
not by the model's own recursion; the numbers of 60_exceptions.md; the register map; and the invariant of every run. -/

namespace Sys2Proof.Spec

open Sys2Proof.Machine

/-- bit(i) (20_memory.md R61), read from the byte's value as a number. -/
def bitAt (s : State) (i : Nat) : Bool := (s.readByte (i / 8)).toNat / 2 ^ (7 - i % 8) % 2 == 1

/-- count(b, lo, hi) (00_scope.md R13) as the size of a set of positions. -/
def count (s : State) (b : Bool) (lo hi : Nat) : Nat := ((Finset.Ico lo hi).filter fun i => bitAt s i = b).card

/-- The number of 1 bits of `v` at bits lo to lo + len − 1 (40_popcount.md R100, R101), as the size of a set. -/
def onesIn {n : Nat} (v : BitVec n) (lo len : Nat) : Nat :=
  ((Finset.range len).filter fun i => v.toNat / 2 ^ (lo + i) % 2 = 1).card

/-- ERRCODE and ERRCAUSE of a cause, as numbers (60_exceptions.md R201, R202). -/
def errorNumbers : ErrorCause → Nat × Nat
  | .badBit => (1, 1)
  | .badBlockConfig => (1, 2)
  | .lengthCapacity => (1, 3)
  | .tableCapacity => (1, 4)
  | .badByteValue => (1, 5)
  | .rankIndex => (2, 6)
  | .selectOrdinal => (2, 7)
  | .byteAddress => (2, 8)
  | .tableIndex => (2, 9)
  | .notCreated => (3, 10)
  | .notBuilt => (3, 11)
  | .vectorImmutable => (3, 12)
  | .unknownOpcode => (4, 13)
  | .reservedBits => (4, 14)

/-- The causes each command raises (60_exceptions.md R202, R204). -/
def causesOf : Instr → List ErrorCause
  | .popcnt8 => [.badByteValue]
  | .popcnt32 => []
  | .wrbyte => [.vectorImmutable, .badByteValue, .byteAddress]
  | .rdbyte => [.byteAddress]
  | .clear => []
  | .create => [.badBlockConfig, .lengthCapacity, .tableCapacity]
  | .build => [.notCreated]
  | .rank => [.notBuilt, .badBit, .rankIndex]
  | .select => [.notBuilt, .badBit, .selectOrdinal]
  | .rdlb => [.notBuilt, .tableIndex]
  | .rdsb => [.notBuilt, .tableIndex]

/-- What a host reads at each assigned offset of the window (10_state.md R22). -/
def registerMap (s : State) : List (Nat × Word) :=
  [(0x00, s.cmd), (0x04, s.opa), (0x08, s.opb), (0x0C, s.lbscfg), (0x10, s.sbscfg), (0x14, s.result),
   (0x18, s.statusWord), (0x1C, s.ctrlWord), (0x20, s.lenbytes), (0x24, s.nbits), (0x28, s.lbs), (0x2C, s.sbs),
   (0x30, 0x52534931#32), (0x34, s.params.maxBytes), (0x38, s.params.lbCap), (0x3C, s.params.sbCap)]

/-- A whole-register host access at an offset of the window of `s`. -/
def hostAt (s : State) (off : Nat) (action : HostAction) : Turn :=
  .host { addr := s.params.baseAddr + off, width := 4, action := action }

/-- With the operands `a` in OPA and `b` in OPB the command succeeds with RESULT `v`. -/
def answers (i : Instr) (s : State) (a b v : Word) : Prop :=
  ∃ t, exec i { s with opa := a, opb := b } = .next t ∧ t.error = none ∧ t.result = v

end Sys2Proof.Spec

namespace Sys2Proof.Machine

/-- The turn has a meaning for a device with parameters `p` that is not in reset: a host access inside the window is an
aligned 32-bit one (20_memory.md R64). -/
def Turn.Defined (p : Params) : Turn → Prop
  | .host a => a.InWindow p → a.WF p
  | .engine => True
  | .resetAssert => True
  | .resetDone => True

/-- A safe run: no step of it is refused. (No step faults: `Fault` has no constructor.) -/
def State.RunsSafely (s : State) (n : Nat) : Prop := ∃ t : State, Host.Core.run Sys2Proof.core n s = .next t

/-- What every run from a reset of a device keeps. -/
structure State.Inv (s : State) : Prop where
  /-- The bounds of 00_scope.md R6. -/
  params_wf : s.params.WF
  /-- The vector RAM's canonical form. -/
  ram_wf : s.ram.WF
  /-- The vector RAM has MAX_BYTES bytes (10_state.md R36). -/
  ram_below : s.ram.Below s.params.maxBytes.toNat
  /-- L ≤ MAX_BYTES (10_state.md R31). -/
  len_le : s.lenbytes.toNat ≤ s.params.maxBytes.toNat
  /-- N = 8 × L (10_state.md R31). -/
  nbits_eq : s.nbits.toNat = 8 * s.lenbytes.toNat
  /-- The geometry registers are 0 in state EMPTY (10_state.md R28, R31, R32). -/
  empty_geometry : s.index = .empty → s.lenbytes = 0#32 ∧ s.lbs = 0#32 ∧ s.sbs = 0#32
  /-- LBS ≥ 1, SBS ≥ 1 and LBS mod SBS = 0 in states CREATED and BUILT (10_state.md R32). -/
  blocks_valid : s.index ≠ .empty → 1 ≤ s.lbs.toNat ∧ 1 ≤ s.sbs.toNat ∧ s.lbs.toNat % s.sbs.toNat = 0
  /-- The tables of an index fit (42_index_build.md R143). -/
  tables_fit : s.index ≠ .empty →
    s.nbits.toNat / s.lbs.toNat + 1 ≤ s.params.lbCap.toNat ∧ s.nbits.toNat / s.sbs.toNat + 1 ≤ s.params.sbCap.toNat
  /-- No entry is defined outside state BUILT (10_state.md R37, R38). -/
  tables_undefined : s.index ≠ .built → s.lb = [] ∧ s.sb = []
  /-- In state BUILT, LB holds the values of 42_index_build.md R145. -/
  lb_built : s.index = .built →
    s.lb.map BitVec.toNat = (List.range (s.nbits.toNat / s.lbs.toNat + 1)).map fun k =>
      Spec.count s true 0 (k * s.lbs.toNat)
  /-- In state BUILT, SB holds the values of 42_index_build.md R146. -/
  sb_built : s.index = .built →
    s.sb.map BitVec.toNat = (List.range (s.nbits.toNat / s.sbs.toNat + 1)).map fun j =>
      Spec.count s true (j / (s.lbs.toNat / s.sbs.toNat) * s.lbs.toNat) (j * s.sbs.toNat)
  /-- DONE is 0 from a command's acceptance to its completion (10_state.md R27). -/
  busy_done : s.busy = true → s.done = false
  /-- While reset is asserted the block is at its reset values (70_reset_and_hazards.md R240). -/
  reset_values : s.inReset = true → s = s.assertReset

end Sys2Proof.Machine
end

