-- ==== Sys2Proof/Certificates/Slice0/Obligations.lean ====
section
/-! DEFINITION. The statements for the provers, each formalising a rule of spec/ or resting on the sections it names. -/

open Sys2Proof Sys2Proof.Machine

/-! ### Command words -/

/-- 30_encoding.md R83: the word of each assigned opcode decodes to its command; opcode 0x00 and opcodes from 0x0C on name
none. -/
def Obligations.OpcodeMapDecodes : Prop :=
  decode 0x00000001#32 = .ok .popcnt8 ∧ decode 0x00000002#32 = .ok .popcnt32 ∧
  decode 0x00000003#32 = .ok .wrbyte ∧ decode 0x00000004#32 = .ok .rdbyte ∧
  decode 0x00000005#32 = .ok .clear ∧ decode 0x00000006#32 = .ok .create ∧
  decode 0x00000007#32 = .ok .build ∧ decode 0x00000008#32 = .ok .rank ∧
  decode 0x00000009#32 = .ok .select ∧ decode 0x0000000A#32 = .ok .rdlb ∧
  decode 0x0000000B#32 = .ok .rdsb ∧
  ∀ w : Word, w.toNat % 256 = 0x00 ∨ 0x0C ≤ w.toNat % 256 → decode w = .error .unknownOpcode

/-- 30_encoding.md R80, R81: a word decodes to a command exactly when it is that command's encoding; an unassigned opcode
and, after it, a nonzero reserved field are what else there is. -/
def Obligations.DecodeInvertsEncodeExactly : Prop :=
  (∀ (w : Word) (i : Instr), decode w = .ok i ↔ w = encode i) ∧
  (∀ w : Word, decode w = .error .unknownOpcode ↔ w.toNat % 256 = 0 ∨ 0x0C ≤ w.toNat % 256) ∧
  (∀ w : Word, decode w = .error .reservedBits ↔
    1 ≤ w.toNat % 256 ∧ w.toNat % 256 ≤ 0x0B ∧ w.toNat / 256 ≠ 0)

/-- 30_encoding.md R80, 60_exceptions.md R206: with a command accepted, a step that is the engine's, whether the schedule
gives it the turn or has no turn left, is `exec` of the command that CMD decodes to; it leaves only the turn behind. -/
def Obligations.StepRunsDecodedCommand : Prop :=
  ∀ (s : State) (i : Instr), s.busy = true → decode s.cmd = .ok i →
    (s.schedule = [] → step s = exec i s) ∧
    (∀ rest, s.schedule = .engine :: rest → step s = exec i { s with schedule := rest })

/-- 30_encoding.md R81, R82, R86: a command word with an unassigned opcode completes with UNKNOWN_OPCODE, one with an
assigned opcode and nonzero CMD[31:8] with RESERVED_BITS, and neither changes anything else; any other word runs the
command its opcode names, before any check of the command itself. -/
def Obligations.IllegalCommandWordsComplete : Prop :=
  ∀ (s : State) (rest : List Turn), s.busy = true → s.schedule = .engine :: rest →
    (s.cmd.toNat % 256 = 0 ∨ 0x0C ≤ s.cmd.toNat % 256 →
      step s = .next { s with error := some .unknownOpcode, busy := false, done := true, schedule := rest }) ∧
    (1 ≤ s.cmd.toNat % 256 → s.cmd.toNat % 256 ≤ 0x0B → s.cmd.toNat / 256 ≠ 0 →
      step s = .next { s with error := some .reservedBits, busy := false, done := true, schedule := rest }) ∧
    (∀ i : Instr, s.cmd = encode i → step s = exec i { s with schedule := rest })

/-- 00_scope.md R8, 60_exceptions.md R218: with BUSY = 0 the engine has no step, and the block holds all its state. -/
def Obligations.IdleBlockHoldsItsState : Prop :=
  ∀ s : State, s.busy = false →
    (s.schedule = [] → step s = .next s) ∧
    (∀ rest, s.schedule = .engine :: rest → step s = .next { s with schedule := rest })

/-! ### Popcount -/

/-- 40_popcount.md R100: POPCNT_LUT has 256 entries, and entry b is the number of 1 bits in the byte b. -/
def Obligations.PopcountTableCountsByteBits : Prop :=
  popcntLut.length = 256 ∧ ∀ b : Byte, popcntLut[b.toNat]? = some (Spec.onesIn b 0 8)

/-- 40_popcount.md R101: field g of stage s of the reduction tree holds the number of 1 bits of the 2^s bits it sums, the
last stage the number of 1 bits of the word; stage 3 is the PopcountTable entry of each byte; four lookups give the same
result. -/
def Obligations.PopcountTreeCountsWordBits : Prop :=
  ∀ w : Word,
    (∀ s, s ≤ 5 → popcountStage w s = (List.range (32 / 2 ^ s)).map fun g => Spec.onesIn w (2 ^ s * g) (2 ^ s)) ∧
    popcountStage w 3 = (List.range 4).map (fun g => popcount8 (w.extractLsb' (8 * g) 8)) ∧
    popcount32 w = Spec.onesIn w 0 32 ∧ popcount32 w ≤ 32 ∧ popcount32ByTable w = popcount32 w

/-- 40_popcount.md R102: POPCNT8 counts the 1 bits of a byte operand (R100) and fails a larger one, in every index state. -/
def Obligations.Popcnt8CountsByteOperand : Prop :=
  decode 0x00000001#32 = .ok .popcnt8 ∧ ∀ s : State,
    (0xFF < s.opa.toNat →
      exec .popcnt8 s = .next { s with error := some .badByteValue, busy := false, done := true }) ∧
    (s.opa.toNat ≤ 0xFF →
      exec .popcnt8 s = .next
        { s with result := BitVec.ofNat 32 (Spec.onesIn s.opa 0 8), error := none, busy := false, done := true })

/-- 40_popcount.md R103: POPCNT32 counts the 1 bits of OPA and never fails, in every index state. -/
def Obligations.Popcnt32CountsWordOperand : Prop :=
  decode 0x00000002#32 = .ok .popcnt32 ∧ ∀ s : State,
    exec .popcnt32 s = .next
      { s with result := BitVec.ofNat 32 (Spec.onesIn s.opa 0 32), error := none, busy := false, done := true }

/-! ### Vector memory -/

/-- 41_vector_memory.md R121: WRBYTE's checks in order; when none fails, byte OPA reads as OPB, every other byte of the
vector RAM reads as before, RESULT is 0 and nothing else changes. The premise is the vector RAM's canonical form. -/
def Obligations.WrbyteStoresOneByte : Prop :=
  decode 0x00000003#32 = .ok .wrbyte ∧ ∀ s : State, s.ram.WF →
    (s.index ≠ .empty →
      exec .wrbyte s = .next { s with error := some .vectorImmutable, busy := false, done := true }) ∧
    (s.index = .empty → 0xFF < s.opb.toNat →
      exec .wrbyte s = .next { s with error := some .badByteValue, busy := false, done := true }) ∧
    (s.index = .empty → s.opb.toNat ≤ 0xFF → s.params.maxBytes.toNat ≤ s.opa.toNat →
      exec .wrbyte s = .next { s with error := some .byteAddress, busy := false, done := true }) ∧
    (s.index = .empty → s.opb.toNat ≤ 0xFF → s.opa.toNat < s.params.maxBytes.toNat →
      ∃ t, exec .wrbyte s = .next t ∧
        (t.readByte s.opa.toNat).toNat = s.opb.toNat ∧
        (∀ a, a ≠ s.opa.toNat → t.readByte a = s.readByte a) ∧
        t = { s with ram := t.ram, result := 0#32, error := none, busy := false, done := true })

/-- 41_vector_memory.md R122: RDBYTE returns the byte at OPA, zero-extended, in every index state, and fails an address at
or above MAX_BYTES. -/
def Obligations.RdbyteReturnsStoredByte : Prop :=
  decode 0x00000004#32 = .ok .rdbyte ∧ ∀ s : State,
    (s.params.maxBytes.toNat ≤ s.opa.toNat →
      exec .rdbyte s = .next { s with error := some .byteAddress, busy := false, done := true }) ∧
    (s.opa.toNat < s.params.maxBytes.toNat →
      exec .rdbyte s = .next
        { s with result := BitVec.ofNat 32 (s.readByte s.opa.toNat).toNat,
                 error := none, busy := false, done := true })

/-- 41_vector_memory.md R123: CLEAR zeroes every byte and the geometry registers, makes every table entry undefined (no
entry listed: the model's representation, log entry 5) and leaves STATE EMPTY, RESULT 0; the other registers are kept. -/
def Obligations.ClearDiscardsIndexAndVector : Prop :=
  decode 0x00000005#32 = .ok .clear ∧ ∀ s : State,
    ∃ t, exec .clear s = .next t ∧
      (∀ a, t.readByte a = 0#8) ∧
      t = { s with ram := t.ram, lenbytes := 0#32, nbits := 0#32, lbs := 0#32, sbs := 0#32, lb := [], sb := [],
                   index := .empty, result := 0#32, error := none, busy := false, done := true }

/-- 41_vector_memory.md R121, R122: writing the same address twice keeps the second value, and reading it back returns that
value. The premise is the vector RAM's canonical form. -/
def Obligations.ReadBackIsLastByteWritten : Prop :=
  ∀ (s : State) (a d d' : Word), s.ram.WF → s.index = .empty →
    a.toNat < s.params.maxBytes.toNat → d.toNat ≤ 0xFF → d'.toNat ≤ 0xFF →
    ∃ t u v,
      exec .wrbyte { s with opa := a, opb := d } = .next t ∧
      exec .wrbyte { t with opa := a, opb := d' } = .next u ∧
      exec .rdbyte { u with opa := a } = .next v ∧
      v.error = none ∧ v.result = d'

/-! ### Index creation, build and table readout -/

/-- 42_index_build.md R141, R142: CREATE's checks in order; when none fails the geometry registers take L, 8 × L and the
block sizes, every table entry becomes undefined (no entry listed: the model's representation, log entry 5), STATE is
CREATED and RESULT is 8 × L. -/
def Obligations.CreateFixesGeometry : Prop :=
  decode 0x00000006#32 = .ok .create ∧ ∀ (s : State) (len lbs sbs : Nat),
    s.opa.toNat = len → s.lbscfg.toNat = lbs → s.sbscfg.toNat = sbs →
    (¬ (1 ≤ sbs ∧ 1 ≤ lbs ∧ lbs % sbs = 0) →
      exec .create s = .next { s with error := some .badBlockConfig, busy := false, done := true }) ∧
    (1 ≤ sbs → 1 ≤ lbs → lbs % sbs = 0 → s.params.maxBytes.toNat < len →
      exec .create s = .next { s with error := some .lengthCapacity, busy := false, done := true }) ∧
    (1 ≤ sbs → 1 ≤ lbs → lbs % sbs = 0 → len ≤ s.params.maxBytes.toNat →
      s.params.lbCap.toNat < 8 * len / lbs + 1 ∨ s.params.sbCap.toNat < 8 * len / sbs + 1 →
      exec .create s = .next { s with error := some .tableCapacity, busy := false, done := true }) ∧
    (1 ≤ sbs → 1 ≤ lbs → lbs % sbs = 0 → len ≤ s.params.maxBytes.toNat →
      8 * len / lbs + 1 ≤ s.params.lbCap.toNat → 8 * len / sbs + 1 ≤ s.params.sbCap.toNat →
      exec .create s = .next
        { s with lenbytes := s.opa, nbits := BitVec.ofNat 32 (8 * len), lbs := s.lbscfg, sbs := s.sbscfg,
                 lb := [], sb := [], index := .created,
                 result := BitVec.ofNat 32 (8 * len), error := none, busy := false, done := true })

/-- 42_index_build.md R143: on a device within the bounds of 00_scope.md R6, any L ≤ MAX_BYTES with valid block sizes
lbs ≥ 256 and sbs ≥ 32, the defaults among them, is created. -/
def Obligations.LargeBlockSizesAlwaysFit : Prop :=
  ∀ s : State, s.params.WF → s.opa.toNat ≤ s.params.maxBytes.toNat →
    256 ≤ s.lbscfg.toNat → 32 ≤ s.sbscfg.toNat → s.lbscfg.toNat % s.sbscfg.toNat = 0 →
    ∃ t, exec .create s = .next t ∧ t.error = none ∧ t.index = .created ∧
      t.nbits.toNat = 8 * s.opa.toNat ∧ t.result = t.nbits

/-- 42_index_build.md R147 with R145 and R146: BUILD fails in EMPTY; else LB[k] = ones(0, k × LBS) and
SB[j] = ones(floor(j / r) × LBS, j × SBS) for every entry up to floor(N / LBS) and floor(N / SBS), STATE is BUILT, RESULT
is ones(0, N), and nothing else changes. -/
def Obligations.BuildFillsTables : Prop :=
  decode 0x00000007#32 = .ok .build ∧ ∀ s : State,
    (s.index = .empty →
      exec .build s = .next { s with error := some .notCreated, busy := false, done := true }) ∧
    (s.index ≠ .empty →
      ∃ t, exec .build s = .next t ∧
        (t.lb.map BitVec.toNat = (List.range (s.nbits.toNat / s.lbs.toNat + 1)).map fun k =>
          Spec.count s true 0 (k * s.lbs.toNat)) ∧
        (t.sb.map BitVec.toNat = (List.range (s.nbits.toNat / s.sbs.toNat + 1)).map fun j =>
          Spec.count s true (j / (s.lbs.toNat / s.sbs.toNat) * s.lbs.toNat) (j * s.sbs.toNat)) ∧
        t = { s with lb := t.lb, sb := t.sb, index := .built,
                     result := BitVec.ofNat 32 (Spec.count s true 0 s.nbits.toNat),
                     error := none, busy := false, done := true })

/-- 42_index_build.md R147, its corner case: BUILD in state BUILT writes the values the tables already hold. -/
def Obligations.RebuildKeepsTables : Prop :=
  ∀ s : State, s.Inv → s.index = .built →
    ∃ t, exec .build s = .next t ∧ t.error = none ∧ t.lb = s.lb ∧ t.sb = s.sb ∧ t.index = .built

/-- 42_index_build.md R150: RDLB fails outside BUILT, then above entry floor(N / LBS); else RESULT is LB[k]. -/
def Obligations.RdlbReturnsLargeBlockEntry : Prop :=
  decode 0x0000000A#32 = .ok .rdlb ∧ ∀ s : State,
    (s.index ≠ .built →
      exec .rdlb s = .next { s with error := some .notBuilt, busy := false, done := true }) ∧
    (s.index = .built → s.nbits.toNat / s.lbs.toNat < s.opa.toNat →
      exec .rdlb s = .next { s with error := some .tableIndex, busy := false, done := true }) ∧
    (∀ v : Word, s.index = .built → s.opa.toNat ≤ s.nbits.toNat / s.lbs.toNat → s.lb[s.opa.toNat]? = some v →
      exec .rdlb s = .next { s with result := v, error := none, busy := false, done := true })

/-- 42_index_build.md R151: RDSB fails outside BUILT, then above entry floor(N / SBS); else RESULT is SB[j]. -/
def Obligations.RdsbReturnsSmallBlockEntry : Prop :=
  decode 0x0000000B#32 = .ok .rdsb ∧ ∀ s : State,
    (s.index ≠ .built →
      exec .rdsb s = .next { s with error := some .notBuilt, busy := false, done := true }) ∧
    (s.index = .built → s.nbits.toNat / s.sbs.toNat < s.opa.toNat →
      exec .rdsb s = .next { s with error := some .tableIndex, busy := false, done := true }) ∧
    (∀ v : Word, s.index = .built → s.opa.toNat ≤ s.nbits.toNat / s.sbs.toNat → s.sb[s.opa.toNat]? = some v →
      exec .rdsb s = .next { s with result := v, error := none, busy := false, done := true })

/-- 42_index_build.md R145: in state BUILT every large-block entry up to floor(N / LBS) reads out as ones(0, k × LBS),
and LB[0] as 0. The premise is the invariant of every run. -/
def Obligations.LargeBlockReadoutIsSnapshot : Prop :=
  ∀ (s : State) (k : Word), s.Inv → s.index = .built → k.toNat ≤ s.nbits.toNat / s.lbs.toNat →
    Spec.answers .rdlb s k s.opb (BitVec.ofNat 32 (Spec.count s true 0 (k.toNat * s.lbs.toNat))) ∧
    Spec.answers .rdlb s 0#32 s.opb 0#32

/-- 42_index_build.md R146: in state BUILT every small-block entry up to floor(N / SBS) reads out as
ones(floor(j / r) × LBS, j × SBS), which is 0 where j mod r = 0 and at most LBS − SBS. The premise is the invariant of
every run. -/
def Obligations.SmallBlockReadoutIsSnapshot : Prop :=
  ∀ (s : State) (j : Word) (r : Nat), s.Inv → s.index = .built → r = s.lbs.toNat / s.sbs.toNat →
    j.toNat ≤ s.nbits.toNat / s.sbs.toNat →
    Spec.answers .rdsb s j s.opb
      (BitVec.ofNat 32 (Spec.count s true (j.toNat / r * s.lbs.toNat) (j.toNat * s.sbs.toNat))) ∧
    (j.toNat % r = 0 → Spec.answers .rdsb s j s.opb 0#32) ∧
    (∀ v, Spec.answers .rdsb s j s.opb v → v.toNat ≤ s.lbs.toNat - s.sbs.toNat)

/-- 42_index_build.md R148 (informative): the single pass writes the entries of R145 and R146 and ends with ones(0, N). -/
def Obligations.SinglePassBuildEqualsDefinition : Prop :=
  ∀ s : State, 1 ≤ s.lbs.toNat → 1 ≤ s.sbs.toNat → s.lbs.toNat % s.sbs.toNat = 0 →
    s.buildPass.lb = (List.range (s.nbits.toNat / s.lbs.toNat + 1)).map (fun k =>
      Spec.count s true 0 (k * s.lbs.toNat)) ∧
    s.buildPass.sb = (List.range (s.nbits.toNat / s.sbs.toNat + 1)).map (fun j =>
      Spec.count s true (j / (s.lbs.toNat / s.sbs.toNat) * s.lbs.toNat) (j * s.sbs.toNat)) ∧
    s.buildPass.total = Spec.count s true 0 s.nbits.toNat

/-- 20_memory.md R63, 40_popcount.md R104 (informative): popcount32 over masked 32-bit words of the bit-vector counts the
1 bits of any range of it. -/
def Obligations.WordwiseCountEqualsBitCount : Prop :=
  ∀ (s : State) (lo hi : Nat), s.nbits.toNat = 8 * s.lenbytes.toNat → hi ≤ s.nbits.toNat →
    s.onesByWords lo hi = Spec.count s true lo hi

/-! ### Rank and select -/

/-- 20_memory.md R61: position i is bit 7 − (i mod 8), 7 the most significant, of the byte at floor(i / 8): the bits of a
byte are taken from its most significant bit down. -/
def Obligations.BitOrderIsMostSignificantFirst : Prop :=
  ∀ (s : State) (a k : Nat), k < 8 → s.bit (8 * a + k) = (s.readByte a).getMsbD k

/-- 20_memory.md R62: BUILD, RANK and SELECT count no bit at a position at or beyond N: with another vector RAM that agrees
on the L bytes of the bit-vector, they do the same. The premise N = 8 × L holds in every run. -/
def Obligations.BytesBeyondLengthDoNotCount : Prop :=
  ∀ (s t : State) (m : Memory) (i : Instr), i = .build ∨ i = .rank ∨ i = .select →
    s.nbits.toNat = 8 * s.lenbytes.toNat → (∀ a, a < s.lenbytes.toNat → m.read a = s.ram.read a) →
    exec i s = .next t → exec i { s with ram := m } = .next { t with ram := m }

/-- 43_rank_select.md R170: RANK's checks in order; when none fails RESULT is the number of positions below the index that
hold the bit, which for bit 0 is the complement i − ones(0, i). -/
def Obligations.RankCountsBitsBeforeIndex : Prop :=
  decode 0x00000008#32 = .ok .rank ∧ ∀ s : State,
    (s.index ≠ .built →
      exec .rank s = .next { s with error := some .notBuilt, busy := false, done := true }) ∧
    (s.index = .built → 1 < s.opb.toNat →
      exec .rank s = .next { s with error := some .badBit, busy := false, done := true }) ∧
    (s.index = .built → s.opb.toNat ≤ 1 → s.nbits.toNat < s.opa.toNat →
      exec .rank s = .next { s with error := some .rankIndex, busy := false, done := true }) ∧
    (∀ b : Bool, s.index = .built → s.opb.toNat = b.toNat → s.opa.toNat ≤ s.nbits.toNat →
      exec .rank s = .next
        { s with result := BitVec.ofNat 32 (Spec.count s b 0 s.opa.toNat),
                 error := none, busy := false, done := true }) ∧
    Spec.count s false 0 s.opa.toNat = s.opa.toNat - Spec.count s true 0 s.opa.toNat

/-- 43_rank_select.md R173: SELECT's checks in order; when none fails RESULT is the least position p below N with
count(b, 0, p + 1) = n, and there is one. -/
def Obligations.SelectFindsLeastPosition : Prop :=
  decode 0x00000009#32 = .ok .select ∧ ∀ s : State,
    (s.index ≠ .built →
      exec .select s = .next { s with error := some .notBuilt, busy := false, done := true }) ∧
    (s.index = .built → 1 < s.opb.toNat →
      exec .select s = .next { s with error := some .badBit, busy := false, done := true }) ∧
    (∀ b : Bool, s.index = .built → s.opb.toNat = b.toNat →
      s.opa.toNat = 0 ∨ Spec.count s b 0 s.nbits.toNat < s.opa.toNat →
      exec .select s = .next { s with error := some .selectOrdinal, busy := false, done := true }) ∧
    (∀ b : Bool, s.index = .built → s.opb.toNat = b.toNat →
      1 ≤ s.opa.toNat → s.opa.toNat ≤ Spec.count s b 0 s.nbits.toNat →
      ∃ p, IsLeast { p | p < s.nbits.toNat ∧ Spec.count s b 0 (p + 1) = s.opa.toNat } p ∧
        exec .select s = .next
          { s with result := BitVec.ofNat 32 p, error := none, busy := false, done := true })

/-- 43_rank_select.md R172: rank(0, b) = 0; rank(N, b) is the count of b over all N bits; rank rises by 1 from i to i + 1
exactly when bit(i) = b, and otherwise stays; rank(i, 0) + rank(i, 1) = i. -/
def Obligations.RankProperties : Prop :=
  ∀ s : State, s.index = .built →
    (∀ b : Bool, Spec.answers .rank s 0#32 (BitVec.ofNat 32 b.toNat) 0#32) ∧
    (∀ b : Bool, Spec.answers .rank s s.nbits (BitVec.ofNat 32 b.toNat)
      (BitVec.ofNat 32 (Spec.count s b 0 s.nbits.toNat))) ∧
    (∀ (b : Bool) (i v v' : Word), i.toNat < s.nbits.toNat →
      Spec.answers .rank s i (BitVec.ofNat 32 b.toNat) v →
      Spec.answers .rank s (i + 1#32) (BitVec.ofNat 32 b.toNat) v' →
      v'.toNat = v.toNat + (if Spec.bitAt s i.toNat = b then 1 else 0)) ∧
    (∀ i v0 v1 : Word, Spec.answers .rank s i 0#32 v0 → Spec.answers .rank s i 1#32 v1 →
      v0.toNat + v1.toNat = i.toNat)

/-- 43_rank_select.md R177: for every n in [1, total_b], select(n, b) = p has rank(p + 1, b) = n and no smaller position
has; rank(p, b) = n − 1; bit(p) = b; select is strictly increasing in n; for n = 0 and n > total_b it fails with
SELECT_ORDINAL. -/
def Obligations.SelectProperties : Prop :=
  ∀ (s : State) (b : Bool) (bit : Word), s.index = .built → bit.toNat = b.toNat →
    (∀ n : Word, 1 ≤ n.toNat → n.toNat ≤ Spec.count s b 0 s.nbits.toNat →
      ∃ p : Word, Spec.answers .select s n bit p ∧ p.toNat < s.nbits.toNat ∧
        Spec.answers .rank s (p + 1#32) bit n ∧ Spec.answers .rank s p bit (n - 1#32) ∧
        Spec.bitAt s p.toNat = b ∧
        ∀ q : Word, q.toNat < p.toNat → ¬ Spec.answers .rank s (q + 1#32) bit n) ∧
    (∀ n m p q : Word, n.toNat < m.toNat →
      Spec.answers .select s n bit p → Spec.answers .select s m bit q → p.toNat < q.toNat) ∧
    (∀ n : Word, n.toNat = 0 ∨ Spec.count s b 0 s.nbits.toNat < n.toNat →
      ∃ t, exec .select { s with opa := n, opb := bit } = .next t ∧ t.error = some .selectOrdinal)

/-- 43_rank_select.md R171 (informative): the large-block snapshot, the small-block snapshot and the count of the trailing
positions add up to the rank, and both entries exist. The premise is the invariant of every run. -/
def Obligations.TableRankEqualsRank : Prop :=
  ∀ (s : State) (b : Bool) (i : Nat), s.Inv → s.index = .built → i ≤ s.nbits.toNat →
    i / s.lbs.toNat < s.lb.length ∧ i / s.sbs.toNat < s.sb.length ∧ s.tableRank b i = Spec.count s b 0 i

/-- 43_rank_select.md R174, R175 (informative): the two binary searches over the tables, the word skips and the in-word
descent find the position of the n-th occurrence. The premise is the invariant of every run. -/
def Obligations.TableSelectEqualsSelect : Prop :=
  ∀ (s : State) (b : Bool) (n : Nat), s.Inv → s.index = .built → 1 ≤ n → n ≤ Spec.count s b 0 s.nbits.toNat →
    IsLeast { p | p < s.nbits.toNat ∧ Spec.count s b 0 (p + 1) = n } (s.tableSelect b n)

/-! ### What every command does, and leaves alone -/

/-- 10_state.md R44, R24 to R26, R30; 60_exceptions.md R200, R206: every command ends in one completion, with DONE 1 and
BUSY 0; none writes CMD, OPA, OPB, LBSCFG, SBSCFG, CTRL or OVERRUN, nor anything outside the block. -/
def Obligations.EveryCommandCompletesAndKeepsHostRegisters : Prop :=
  ∀ (i : Instr) (s : State), ∃ t, exec i s = .next t ∧
    t.done = true ∧ t.busy = false ∧
    t.cmd = s.cmd ∧ t.opa = s.opa ∧ t.opb = s.opb ∧ t.lbscfg = s.lbscfg ∧ t.sbscfg = s.sbscfg ∧
    t.ie = s.ie ∧ t.overrun = s.overrun ∧ t.params = s.params ∧
    t.inReset = s.inReset ∧ t.schedule = s.schedule ∧ t.readLog = s.readLog

/-- 60_exceptions.md R207, R208: a command that fails changes nothing but ERRCODE and ERRCAUSE, BUSY and DONE. -/
def Obligations.FailedCommandChangesOnlyStatus : Prop :=
  ∀ (i : Instr) (s t : State) (c : ErrorCause), exec i s = .next t → t.error = some c →
    t = { s with error := some c, busy := false, done := true }

/-- 60_exceptions.md R202, R204: a command fails only with the causes its row lists. -/
def Obligations.CommandsRaiseOnlyTheirCauses : Prop :=
  ∀ (i : Instr) (s t : State) (c : ErrorCause), exec i s = .next t → t.error = some c → c ∈ Spec.causesOf i

/-- 10_state.md R28: a successful CLEAR goes to EMPTY, CREATE to CREATED from any state, BUILD from CREATED or BUILT to
BUILT; every other command, and every failed one, keeps the index state. -/
def Obligations.IndexStateTransitions : Prop :=
  ∀ (i : Instr) (s t : State), exec i s = .next t →
    (t.error ≠ none → t.index = s.index) ∧
    (t.error = none → i = .clear → t.index = .empty) ∧
    (t.error = none → i = .create → t.index = .created) ∧
    (t.error = none → i = .build → s.index ≠ .empty ∧ t.index = .built) ∧
    (i ≠ .clear → i ≠ .create → i ≠ .build → t.index = s.index)

/-- 42_index_build.md R140, R149; 10_state.md R31, R32, R37, R38: only CREATE and CLEAR write the geometry registers; only
CREATE, CLEAR and BUILD touch the tables. -/
def Obligations.GeometryAndTableFrame : Prop :=
  ∀ (i : Instr) (s t : State), exec i s = .next t →
    (i ≠ .clear → i ≠ .create →
      t.lenbytes = s.lenbytes ∧ t.nbits = s.nbits ∧ t.lbs = s.lbs ∧ t.sbs = s.sbs) ∧
    (i ≠ .clear → i ≠ .create → i ≠ .build → t.lb = s.lb ∧ t.sb = s.sb)

/-- 41_vector_memory.md R124: while an index exists no command but CLEAR writes a byte of the vector RAM, and in any state
only WRBYTE and CLEAR write one; so every byte reads as before from one step to the next as long as an index exists. -/
def Obligations.VectorIsImmutableUnderAnIndex : Prop :=
  (∀ (i : Instr) (s t : State), exec i s = .next t → i ≠ .clear → i ≠ .wrbyte ∨ s.index ≠ .empty →
    ∀ a, t.readByte a = s.readByte a) ∧
  (∀ s t : State, step s = .next t → s.index ≠ .empty → t.index ≠ .empty →
    ∀ a, t.readByte a = s.readByte a)

/-- 30_encoding.md R84: a command does not depend on a register it does not read: OPB by all but WRBYTE, RANK and SELECT,
LBSCFG and SBSCFG by all but CREATE, OPA by CLEAR and BUILD. -/
def Obligations.CommandsIgnoreUnreadOperands : Prop :=
  ∀ (i : Instr) (s t : State), exec i s = .next t →
    (i ≠ .wrbyte → i ≠ .rank → i ≠ .select →
      ∀ v, exec i { s with opb := v } = .next { t with opb := v }) ∧
    (i ≠ .create → ∀ v w, exec i { s with lbscfg := v, sbscfg := w } = .next { t with lbscfg := v, sbscfg := w }) ∧
    (i = .clear ∨ i = .build → ∀ v, exec i { s with opa := v } = .next { t with opa := v })

/-! ### The register window -/

/-- 10_state.md R27: the fields of STATUS, and its reserved bits, as a host reads them. -/
def Obligations.StatusWordFields : Prop :=
  ∀ s : State,
    (s.statusWord.getLsbD 0 = s.busy) ∧ (s.statusWord.getLsbD 1 = s.done) ∧
    (s.statusWord.getLsbD 2 = true ↔ s.statusWord.toNat / 2 ^ 8 % 16 ≠ 0) ∧
    (s.statusWord.getLsbD 3 = s.overrun) ∧
    (s.statusWord.toNat / 2 ^ 4 % 4 =
      match s.index with
      | .empty => 0
      | .created => 1
      | .built => 2) ∧
    s.statusWord.toNat / 2 ^ 6 % 4 = 0 ∧ s.statusWord.toNat / 2 ^ 20 = 0

/-- 60_exceptions.md R201, R202: STATUS reports each cause with its ERRCODE and ERRCAUSE, and 0 and 0 after a success. -/
def Obligations.StatusReportsErrorNumbers : Prop :=
  ∀ s : State,
    (s.error = none → s.statusWord.toNat / 2 ^ 8 % 16 = 0 ∧ s.statusWord.toNat / 2 ^ 12 % 256 = 0) ∧
    (∀ c, s.error = some c →
      (s.statusWord.toNat / 2 ^ 8 % 16, s.statusWord.toNat / 2 ^ 12 % 256) = Spec.errorNumbers c)

/-- 10_state.md R22, R35; 20_memory.md R66: a host read returns the register at its offset, 0 at a reserved one, and
changes nothing in the block. The record of the value read is the model's own (log entry 3). -/
def Obligations.HostReadReturnsRegisterWithoutSideEffect : Prop :=
  ∀ (s : State) (off : Nat) (rest : List Turn), s.inReset = false → s.schedule = Spec.hostAt s off .read :: rest →
    (∀ v, (off, v) ∈ Spec.registerMap s →
      step s = .next { s with schedule := rest, readLog := v :: s.readLog }) ∧
    (0x40 ≤ off → off ≤ 0xFC → off % 4 = 0 →
      step s = .next { s with schedule := rest, readLog := 0#32 :: s.readLog })

/-- 10_state.md R22 (log entry 8, the model's inference): a host access wholly outside the window does not reach the
block. -/
def Obligations.AccessOutsideWindowDoesNotReachBlock : Prop :=
  ∀ (s : State) (a : HostAccess) (rest : List Turn), s.schedule = .host a :: rest →
    (∀ x, a.addr ≤ x → x < a.addr + max 1 a.width → x < s.params.baseAddr ∨ s.params.baseAddr + 0x100 ≤ x) →
    step s = .next { s with schedule := rest }

/-- 10_state.md R33, R34, R35, R29, R31, R32: a host write to a read-only register or a reserved offset is ignored and
never sets OVERRUN, whether or not BUSY = 1. -/
def Obligations.ReadOnlyAndReservedOffsetsIgnoreWrites : Prop :=
  ∀ (s : State) (off : Nat) (v : Word) (rest : List Turn), s.inReset = false →
    s.schedule = Spec.hostAt s off (.write v) :: rest →
    off = 0x14 ∨ (0x20 ≤ off ∧ off ≤ 0xFC ∧ off % 4 = 0) →
    step s = .next { s with schedule := rest }

/-- 10_state.md R24, R25, R26: a host write to OPA, OPB, LBSCFG or SBSCFG while BUSY = 0 stores the value, any value. -/
def Obligations.OperandWriteStoresWhileIdle : Prop :=
  ∀ (s : State) (off : Nat) (v : Word) (rest : List Turn), s.inReset = false → s.busy = false →
    s.schedule = Spec.hostAt s off (.write v) :: rest →
    (off = 0x04 → step s = .next { s with opa := v, schedule := rest }) ∧
    (off = 0x08 → step s = .next { s with opb := v, schedule := rest }) ∧
    (off = 0x0C → step s = .next { s with lbscfg := v, schedule := rest }) ∧
    (off = 0x10 → step s = .next { s with sbscfg := v, schedule := rest })

/-- 10_state.md R23, 60_exceptions.md R205: a host write to CMD while BUSY = 0 is accepted, whatever its value: CMD holds
it, BUSY is 1, DONE and IRQ are 0, and everything else keeps its value. -/
def Obligations.CommandWriteIsAcceptedWhileIdle : Prop :=
  ∀ (s : State) (w : Word) (rest : List Turn), s.inReset = false → s.busy = false →
    s.schedule = Spec.hostAt s 0x00 (.write w) :: rest →
    ∃ t, step s = .next t ∧ t = { s with cmd := w, busy := true, done := false, schedule := rest } ∧ t.irq = false

/-- 60_exceptions.md R212: a host write to CMD, OPA, OPB, LBSCFG or SBSCFG while BUSY = 1 is dropped and sets OVERRUN;
writes to STATUS and CTRL are honoured and do not set it; OVERRUN falls only by a STATUS write with bit 3 set or by
reset, and rises only by a dropped write. -/
def Obligations.DroppedWriteSetsOverrun : Prop :=
  (∀ (s : State) (off : Nat) (v : Word) (rest : List Turn), s.inReset = false → s.busy = true →
    s.schedule = Spec.hostAt s off (.write v) :: rest →
    (off ∈ [0x00, 0x04, 0x08, 0x0C, 0x10] → step s = .next { s with overrun := true, schedule := rest }) ∧
    (off = 0x18 → step s = .next { s with done := s.done && !v.getLsbD 1, overrun := s.overrun && !v.getLsbD 3,
                                          schedule := rest }) ∧
    (off = 0x1C → step s = .next { s with ie := v.getLsbD 0, schedule := rest })) ∧
  (∀ s t : State, step s = .next t → s.overrun = true → t.overrun = false →
    ∃ rest, s.schedule = .resetAssert :: rest ∨
      ∃ v : Word, v.getLsbD 3 = true ∧ s.schedule = Spec.hostAt s 0x18 (.write v) :: rest) ∧
  (∀ s t : State, step s = .next t → s.overrun = false → t.overrun = true →
    s.busy = true ∧ ∃ rest off v, off ∈ [0x00, 0x04, 0x08, 0x0C, 0x10] ∧
      s.schedule = Spec.hostAt s off (.write v) :: rest)

/-- 10_state.md R27: a host write to STATUS clears DONE where bit 1 of the value is 1 and OVERRUN where bit 3 is 1,
whether or not BUSY = 1, and every other bit is ignored. -/
def Obligations.StatusWriteClearsFlags : Prop :=
  ∀ (s : State) (v : Word) (rest : List Turn), s.inReset = false →
    s.schedule = Spec.hostAt s 0x18 (.write v) :: rest →
    step s = .next { s with done := if v.toNat / 2 % 2 = 1 then false else s.done,
                            overrun := if v.toNat / 8 % 2 = 1 then false else s.overrun, schedule := rest }

/-- 10_state.md R30: a host write to CTRL stores bit 0 as IE and ignores the rest, whether or not BUSY = 1; CTRL reads as
IE in bit 0 and zeros; no command writes it; reset clears it. -/
def Obligations.ControlRegister : Prop :=
  (∀ (s : State) (v : Word) (rest : List Turn), s.inReset = false →
    s.schedule = Spec.hostAt s 0x1C (.write v) :: rest →
    step s = .next { s with ie := v.toNat % 2 == 1, schedule := rest }) ∧
  (∀ s : State, s.ctrlWord.toNat = s.ie.toNat) ∧
  (∀ (i : Instr) (s t : State), exec i s = .next t → t.ie = s.ie) ∧
  (∀ (s : State) (rest : List Turn), s.schedule = .resetAssert :: rest →
    ∃ t, step s = .next t ∧ t.ie = false ∧ t.ctrlWord = 0#32)

/-- 20_memory.md R64, 70_reset_and_hazards.md R240: a step is refused exactly when its turn is a host access that touches
the window (log entry 8) and comes during reset, or is not of 4 bytes at an offset that is a multiple of 4. -/
def Obligations.OnlyUndefinedHostAccessesAreRefused : Prop :=
  ∀ (s : State) (r : Refusal), step s = .refused r ↔
    ∃ (a : HostAccess) (rest : List Turn), s.schedule = .host a :: rest ∧
      (∃ x, a.addr ≤ x ∧ x < a.addr + max 1 a.width ∧ s.params.baseAddr ≤ x ∧ x < s.params.baseAddr + 0x100) ∧
      ((s.inReset = true ∧ r = .hostAccessDuringReset) ∨
       (s.inReset = false ∧ (¬ ∃ k, a.width = 4 ∧ a.addr = s.params.baseAddr + 4 * k) ∧ r = .undefinedHostAccess))

/-- 10_state.md R41, 60_exceptions.md R209: IRQ is CTRL.IE AND STATUS.DONE; after any completion, successful or failed, it
equals IE; acceptance and a STATUS write with bit 1 set take it to 0. -/
def Obligations.InterruptFollowsCompletion : Prop :=
  (∀ s : State, s.irq = true ↔ s.ie = true ∧ s.done = true) ∧
  (∀ (i : Instr) (s t : State), exec i s = .next t → t.irq = s.ie) ∧
  (∀ (s : State) (v : Word) (rest : List Turn), s.inReset = false →
    (s.busy = false ∧ s.schedule = Spec.hostAt s 0x00 (.write v) :: rest) ∨
      (v.getLsbD 1 = true ∧ s.schedule = Spec.hostAt s 0x18 (.write v) :: rest) →
    ∃ t, step s = .next t ∧ t.irq = false)

/-- 30_encoding.md R85, 20_memory.md R67: as long as BUSY stays 1, whatever turn is taken, CMD, the operands and every
piece of the block's state keep their values, but for OVERRUN, DONE and IE, which host writes may change, and for what
stands outside the block. So operands read at acceptance and at any later moment of the command are the same. -/
def Obligations.BusyBlockHoldsOperandsAndOldState : Prop :=
  ∀ s t : State, s.busy = true → step s = .next t → t.busy = true →
    t = { s with overrun := t.overrun, done := t.done, ie := t.ie,
                 inReset := t.inReset, schedule := t.schedule, readLog := t.readLog }

/-! ### Reset -/

/-- 10_state.md R42: the values of a device's state after reset, for any parameters. -/
def Obligations.ResetValues : Prop :=
  (∀ p : Params, Spec.registerMap (State.resetFor p) =
    [(0x00, 0#32), (0x04, 0#32), (0x08, 0#32), (0x0C, 0x100#32), (0x10, 0x20#32), (0x14, 0#32), (0x18, 0#32),
     (0x1C, 0#32), (0x20, 0#32), (0x24, 0#32), (0x28, 0#32), (0x2C, 0#32),
     (0x30, 0x52534931#32), (0x34, p.maxBytes), (0x38, p.lbCap), (0x3C, p.sbCap)]) ∧
  (∀ (p : Params) (a : Nat), (State.resetFor p).readByte a = 0#8) ∧
  (∀ p : Params, (State.resetFor p).lb = [] ∧ (State.resetFor p).sb = [] ∧ (State.resetFor p).irq = false) ∧
  (∃ p : Params, State.reset = State.resetFor p)

/-- 70_reset_and_hazards.md R240, 60_exceptions.md R213: asserting reset, whatever the block is doing, aborts the command
in progress and gives every piece of its state the value of 10_state.md R42; host accesses are refused until the reset
sequence has finished. -/
def Obligations.ResetAbortsAndRestores : Prop :=
  ∀ (s : State) (rest : List Turn), s.schedule = .resetAssert :: rest →
    ∃ t, step s = .next t ∧
      t = { State.resetFor s.params with inReset := true, schedule := rest, readLog := s.readLog } ∧
      (∀ off action more, off < 0x100 → rest = Spec.hostAt s off action :: more →
        step t = .refused .hostAccessDuringReset) ∧
      (∀ more, rest = .resetDone :: more →
        step t = .next { State.resetFor s.params with schedule := more, readLog := s.readLog })

/-- 70_reset_and_hazards.md R241: no step but an asserted reset or a host write changes OPA, OPB, LBSCFG, SBSCFG, IE or
OVERRUN. -/
def Obligations.OnlyHostAndResetChangeHostRegisters : Prop :=
  ∀ s t : State, step s = .next t →
    (∀ rest, s.schedule ≠ .resetAssert :: rest) → (∀ a v rest, a.action = .write v → s.schedule ≠ .host a :: rest) →
    t.opa = s.opa ∧ t.opb = s.opb ∧ t.lbscfg = s.lbscfg ∧ t.sbscfg = s.sbscfg ∧ t.ie = s.ie ∧ t.overrun = s.overrun

/-! ### The invariant, progress and the host's programs -/

/-- The invariant holds after reset on every device within the bounds of 00_scope.md R6, and for `State.reset`. -/
def Obligations.InvariantHoldsAtReset : Prop :=
  (∀ p : Params, p.WF → (State.resetFor p).Inv) ∧ State.reset.Inv

/-- Every step keeps the invariant: the bounds of the geometry (10_state.md R31, R32, 42_index_build.md R143), the tables'
contents in BUILT (R145, R146) and their emptiness outside it, the vector RAM's canonical form, DONE = 0 while BUSY = 1,
and the reset values during reset. -/
def Obligations.StepKeepsInvariant : Prop :=
  ∀ s t : State, s.Inv → step s = .next t → t.Inv

/-- 70_reset_and_hazards.md R251: a busy block whose turns to come are defined and hold no reset completes within as many
steps as there are turns, and one more. -/
def Obligations.AcceptedCommandCompletes : Prop :=
  ∀ s : State, s.busy = true → s.inReset = false →
    (∀ t ∈ s.schedule, t ≠ .resetAssert ∧ Turn.Defined s.params t) →
    ∃ (n : Nat) (t : State), n ≤ s.schedule.length + 1 ∧ Host.Core.run Sys2Proof.core n s = .next t ∧
      t.busy = false ∧ t.done = true ∧ t.cmd = s.cmd

/-- Outside reset, a schedule of defined turns without reset is never refused, however many steps are taken. -/
def Obligations.DefinedTurnsRunSafely : Prop :=
  ∀ (s : State) (n : Nat), s.inReset = false →
    (∀ t ∈ s.schedule, t ≠ .resetAssert ∧ Turn.Defined s.params t) → s.RunsSafely n

/-- 30_encoding.md R89: the turns a command's mnemonic expands into, whatever the latency, leave the block as the command
leaves it with its operands written and its word accepted, and the host has read STATUS and RESULT after it. The polls
before the engine's step, and the record of reads, are the model's (log entries 3 and 16). -/
def Obligations.HostMnemonicRunsItsCommand : Prop :=
  ∀ (s : State) (lat : Nat) (a b : Word) (op : HostOp) (i : Instr) (opa opb : Word),
    s.busy = false → s.inReset = false →
    (op, i, opa, opb) ∈
      [(HostOp.popcnt8 a, Instr.popcnt8, a, s.opb), (.popcnt32 a, .popcnt32, a, s.opb), (.wrbyte a b, .wrbyte, a, b),
       (.rdbyte a, .rdbyte, a, s.opb), (.clear, .clear, s.opa, s.opb), (.create a, .create, a, s.opb),
       (.build, .build, s.opa, s.opb), (.rank a b, .rank, a, b), (.select a b, .select, a, b),
       (.rdlb a, .rdlb, a, s.opb), (.rdsb a, .rdsb, a, s.opb)] →
    s.schedule = op.expand s.params lat →
    ∃ (t : State) (polls : List Word),
      exec i { s with opa := opa, opb := opb, cmd := encode i, busy := true, done := false, schedule := [] } = .next t ∧
      polls.length = lat ∧ (∀ w ∈ polls, w.getLsbD 0 = true) ∧
      Host.Core.run Sys2Proof.core s.schedule.length s =
        .next { t with readLog := t.result :: t.statusWord :: t.statusWord :: polls ++ s.readLog }
end

