-- ==== Sys2Proof/Laws/State.lean ====
section
/-! SUPPORT. One lemma per field per update of State, true by rfl, so that no proof unfolds a record update. -/

namespace Sys2Proof.Machine

/-! ### Successful completion writes RESULT, ERRCODE and ERRCAUSE, BUSY and DONE (60_exceptions.md R206) -/

@[simp] theorem State.complete_params (s : State) (v : Word) : (s.complete v).params = s.params := rfl
@[simp] theorem State.complete_cmd (s : State) (v : Word) : (s.complete v).cmd = s.cmd := rfl
@[simp] theorem State.complete_opa (s : State) (v : Word) : (s.complete v).opa = s.opa := rfl
@[simp] theorem State.complete_opb (s : State) (v : Word) : (s.complete v).opb = s.opb := rfl
@[simp] theorem State.complete_lbscfg (s : State) (v : Word) : (s.complete v).lbscfg = s.lbscfg := rfl
@[simp] theorem State.complete_sbscfg (s : State) (v : Word) : (s.complete v).sbscfg = s.sbscfg := rfl
@[simp] theorem State.complete_result (s : State) (v : Word) : (s.complete v).result = v := rfl
@[simp] theorem State.complete_busy (s : State) (v : Word) : (s.complete v).busy = false := rfl
@[simp] theorem State.complete_done (s : State) (v : Word) : (s.complete v).done = true := rfl
@[simp] theorem State.complete_overrun (s : State) (v : Word) : (s.complete v).overrun = s.overrun := rfl
@[simp] theorem State.complete_index (s : State) (v : Word) : (s.complete v).index = s.index := rfl
@[simp] theorem State.complete_error (s : State) (v : Word) : (s.complete v).error = none := rfl
@[simp] theorem State.complete_ie (s : State) (v : Word) : (s.complete v).ie = s.ie := rfl
@[simp] theorem State.complete_lenbytes (s : State) (v : Word) : (s.complete v).lenbytes = s.lenbytes := rfl
@[simp] theorem State.complete_nbits (s : State) (v : Word) : (s.complete v).nbits = s.nbits := rfl
@[simp] theorem State.complete_lbs (s : State) (v : Word) : (s.complete v).lbs = s.lbs := rfl
@[simp] theorem State.complete_sbs (s : State) (v : Word) : (s.complete v).sbs = s.sbs := rfl
@[simp] theorem State.complete_ram (s : State) (v : Word) : (s.complete v).ram = s.ram := rfl
@[simp] theorem State.complete_lb (s : State) (v : Word) : (s.complete v).lb = s.lb := rfl
@[simp] theorem State.complete_sb (s : State) (v : Word) : (s.complete v).sb = s.sb := rfl
@[simp] theorem State.complete_inReset (s : State) (v : Word) : (s.complete v).inReset = s.inReset := rfl
@[simp] theorem State.complete_schedule (s : State) (v : Word) : (s.complete v).schedule = s.schedule := rfl
@[simp] theorem State.complete_readLog (s : State) (v : Word) : (s.complete v).readLog = s.readLog := rfl

/-! ### Error completion writes ERRCODE and ERRCAUSE, BUSY and DONE (60_exceptions.md R207) -/

@[simp] theorem State.raiseError_params (s : State) (c : ErrorCause) : (s.raiseError c).params = s.params := rfl
@[simp] theorem State.raiseError_cmd (s : State) (c : ErrorCause) : (s.raiseError c).cmd = s.cmd := rfl
@[simp] theorem State.raiseError_opa (s : State) (c : ErrorCause) : (s.raiseError c).opa = s.opa := rfl
@[simp] theorem State.raiseError_opb (s : State) (c : ErrorCause) : (s.raiseError c).opb = s.opb := rfl
@[simp] theorem State.raiseError_lbscfg (s : State) (c : ErrorCause) : (s.raiseError c).lbscfg = s.lbscfg := rfl
@[simp] theorem State.raiseError_sbscfg (s : State) (c : ErrorCause) : (s.raiseError c).sbscfg = s.sbscfg := rfl
@[simp] theorem State.raiseError_result (s : State) (c : ErrorCause) : (s.raiseError c).result = s.result := rfl
@[simp] theorem State.raiseError_busy (s : State) (c : ErrorCause) : (s.raiseError c).busy = false := rfl
@[simp] theorem State.raiseError_done (s : State) (c : ErrorCause) : (s.raiseError c).done = true := rfl
@[simp] theorem State.raiseError_overrun (s : State) (c : ErrorCause) : (s.raiseError c).overrun = s.overrun := rfl
@[simp] theorem State.raiseError_index (s : State) (c : ErrorCause) : (s.raiseError c).index = s.index := rfl
@[simp] theorem State.raiseError_error (s : State) (c : ErrorCause) : (s.raiseError c).error = some c := rfl
@[simp] theorem State.raiseError_ie (s : State) (c : ErrorCause) : (s.raiseError c).ie = s.ie := rfl
@[simp] theorem State.raiseError_lenbytes (s : State) (c : ErrorCause) : (s.raiseError c).lenbytes = s.lenbytes := rfl
@[simp] theorem State.raiseError_nbits (s : State) (c : ErrorCause) : (s.raiseError c).nbits = s.nbits := rfl
@[simp] theorem State.raiseError_lbs (s : State) (c : ErrorCause) : (s.raiseError c).lbs = s.lbs := rfl
@[simp] theorem State.raiseError_sbs (s : State) (c : ErrorCause) : (s.raiseError c).sbs = s.sbs := rfl
@[simp] theorem State.raiseError_ram (s : State) (c : ErrorCause) : (s.raiseError c).ram = s.ram := rfl
@[simp] theorem State.raiseError_lb (s : State) (c : ErrorCause) : (s.raiseError c).lb = s.lb := rfl
@[simp] theorem State.raiseError_sb (s : State) (c : ErrorCause) : (s.raiseError c).sb = s.sb := rfl
@[simp] theorem State.raiseError_inReset (s : State) (c : ErrorCause) : (s.raiseError c).inReset = s.inReset := rfl
@[simp] theorem State.raiseError_schedule (s : State) (c : ErrorCause) : (s.raiseError c).schedule = s.schedule := rfl
@[simp] theorem State.raiseError_readLog (s : State) (c : ErrorCause) : (s.raiseError c).readLog = s.readLog := rfl

/-! ### Acceptance writes CMD, BUSY and DONE (60_exceptions.md R205) -/

@[simp] theorem State.accept_params (s : State) (w : Word) : (s.accept w).params = s.params := rfl
@[simp] theorem State.accept_cmd (s : State) (w : Word) : (s.accept w).cmd = w := rfl
@[simp] theorem State.accept_opa (s : State) (w : Word) : (s.accept w).opa = s.opa := rfl
@[simp] theorem State.accept_opb (s : State) (w : Word) : (s.accept w).opb = s.opb := rfl
@[simp] theorem State.accept_lbscfg (s : State) (w : Word) : (s.accept w).lbscfg = s.lbscfg := rfl
@[simp] theorem State.accept_sbscfg (s : State) (w : Word) : (s.accept w).sbscfg = s.sbscfg := rfl
@[simp] theorem State.accept_result (s : State) (w : Word) : (s.accept w).result = s.result := rfl
@[simp] theorem State.accept_busy (s : State) (w : Word) : (s.accept w).busy = true := rfl
@[simp] theorem State.accept_done (s : State) (w : Word) : (s.accept w).done = false := rfl
@[simp] theorem State.accept_overrun (s : State) (w : Word) : (s.accept w).overrun = s.overrun := rfl
@[simp] theorem State.accept_index (s : State) (w : Word) : (s.accept w).index = s.index := rfl
@[simp] theorem State.accept_error (s : State) (w : Word) : (s.accept w).error = s.error := rfl
@[simp] theorem State.accept_ie (s : State) (w : Word) : (s.accept w).ie = s.ie := rfl
@[simp] theorem State.accept_lenbytes (s : State) (w : Word) : (s.accept w).lenbytes = s.lenbytes := rfl
@[simp] theorem State.accept_nbits (s : State) (w : Word) : (s.accept w).nbits = s.nbits := rfl
@[simp] theorem State.accept_lbs (s : State) (w : Word) : (s.accept w).lbs = s.lbs := rfl
@[simp] theorem State.accept_sbs (s : State) (w : Word) : (s.accept w).sbs = s.sbs := rfl
@[simp] theorem State.accept_ram (s : State) (w : Word) : (s.accept w).ram = s.ram := rfl
@[simp] theorem State.accept_lb (s : State) (w : Word) : (s.accept w).lb = s.lb := rfl
@[simp] theorem State.accept_sb (s : State) (w : Word) : (s.accept w).sb = s.sb := rfl
@[simp] theorem State.accept_inReset (s : State) (w : Word) : (s.accept w).inReset = s.inReset := rfl
@[simp] theorem State.accept_schedule (s : State) (w : Word) : (s.accept w).schedule = s.schedule := rfl
@[simp] theorem State.accept_readLog (s : State) (w : Word) : (s.accept w).readLog = s.readLog := rfl

/-! ### A dropped write sets OVERRUN (60_exceptions.md R212) -/

@[simp] theorem State.dropWrite_params (s : State) : (s.dropWrite).params = s.params := rfl
@[simp] theorem State.dropWrite_cmd (s : State) : (s.dropWrite).cmd = s.cmd := rfl
@[simp] theorem State.dropWrite_opa (s : State) : (s.dropWrite).opa = s.opa := rfl
@[simp] theorem State.dropWrite_opb (s : State) : (s.dropWrite).opb = s.opb := rfl
@[simp] theorem State.dropWrite_lbscfg (s : State) : (s.dropWrite).lbscfg = s.lbscfg := rfl
@[simp] theorem State.dropWrite_sbscfg (s : State) : (s.dropWrite).sbscfg = s.sbscfg := rfl
@[simp] theorem State.dropWrite_result (s : State) : (s.dropWrite).result = s.result := rfl
@[simp] theorem State.dropWrite_busy (s : State) : (s.dropWrite).busy = s.busy := rfl
@[simp] theorem State.dropWrite_done (s : State) : (s.dropWrite).done = s.done := rfl
@[simp] theorem State.dropWrite_overrun (s : State) : (s.dropWrite).overrun = true := rfl
@[simp] theorem State.dropWrite_index (s : State) : (s.dropWrite).index = s.index := rfl
@[simp] theorem State.dropWrite_error (s : State) : (s.dropWrite).error = s.error := rfl
@[simp] theorem State.dropWrite_ie (s : State) : (s.dropWrite).ie = s.ie := rfl
@[simp] theorem State.dropWrite_lenbytes (s : State) : (s.dropWrite).lenbytes = s.lenbytes := rfl
@[simp] theorem State.dropWrite_nbits (s : State) : (s.dropWrite).nbits = s.nbits := rfl
@[simp] theorem State.dropWrite_lbs (s : State) : (s.dropWrite).lbs = s.lbs := rfl
@[simp] theorem State.dropWrite_sbs (s : State) : (s.dropWrite).sbs = s.sbs := rfl
@[simp] theorem State.dropWrite_ram (s : State) : (s.dropWrite).ram = s.ram := rfl
@[simp] theorem State.dropWrite_lb (s : State) : (s.dropWrite).lb = s.lb := rfl
@[simp] theorem State.dropWrite_sb (s : State) : (s.dropWrite).sb = s.sb := rfl
@[simp] theorem State.dropWrite_inReset (s : State) : (s.dropWrite).inReset = s.inReset := rfl
@[simp] theorem State.dropWrite_schedule (s : State) : (s.dropWrite).schedule = s.schedule := rfl
@[simp] theorem State.dropWrite_readLog (s : State) : (s.dropWrite).readLog = s.readLog := rfl

/-! ### A byte written changes the vector RAM -/

@[simp] theorem State.writeByte_params (s : State) (a : Nat) (v : Byte) : (s.writeByte a v).params = s.params := rfl
@[simp] theorem State.writeByte_cmd (s : State) (a : Nat) (v : Byte) : (s.writeByte a v).cmd = s.cmd := rfl
@[simp] theorem State.writeByte_opa (s : State) (a : Nat) (v : Byte) : (s.writeByte a v).opa = s.opa := rfl
@[simp] theorem State.writeByte_opb (s : State) (a : Nat) (v : Byte) : (s.writeByte a v).opb = s.opb := rfl
@[simp] theorem State.writeByte_lbscfg (s : State) (a : Nat) (v : Byte) : (s.writeByte a v).lbscfg = s.lbscfg := rfl
@[simp] theorem State.writeByte_sbscfg (s : State) (a : Nat) (v : Byte) : (s.writeByte a v).sbscfg = s.sbscfg := rfl
@[simp] theorem State.writeByte_result (s : State) (a : Nat) (v : Byte) : (s.writeByte a v).result = s.result := rfl
@[simp] theorem State.writeByte_busy (s : State) (a : Nat) (v : Byte) : (s.writeByte a v).busy = s.busy := rfl
@[simp] theorem State.writeByte_done (s : State) (a : Nat) (v : Byte) : (s.writeByte a v).done = s.done := rfl
@[simp] theorem State.writeByte_overrun (s : State) (a : Nat) (v : Byte) : (s.writeByte a v).overrun = s.overrun := rfl
@[simp] theorem State.writeByte_index (s : State) (a : Nat) (v : Byte) : (s.writeByte a v).index = s.index := rfl
@[simp] theorem State.writeByte_error (s : State) (a : Nat) (v : Byte) : (s.writeByte a v).error = s.error := rfl
@[simp] theorem State.writeByte_ie (s : State) (a : Nat) (v : Byte) : (s.writeByte a v).ie = s.ie := rfl
@[simp] theorem State.writeByte_lenbytes (s : State) (a : Nat) (v : Byte) : (s.writeByte a v).lenbytes = s.lenbytes := rfl
@[simp] theorem State.writeByte_nbits (s : State) (a : Nat) (v : Byte) : (s.writeByte a v).nbits = s.nbits := rfl
@[simp] theorem State.writeByte_lbs (s : State) (a : Nat) (v : Byte) : (s.writeByte a v).lbs = s.lbs := rfl
@[simp] theorem State.writeByte_sbs (s : State) (a : Nat) (v : Byte) : (s.writeByte a v).sbs = s.sbs := rfl
@[simp] theorem State.writeByte_ram (s : State) (a : Nat) (v : Byte) : (s.writeByte a v).ram = s.ram.write a v := rfl
@[simp] theorem State.writeByte_lb (s : State) (a : Nat) (v : Byte) : (s.writeByte a v).lb = s.lb := rfl
@[simp] theorem State.writeByte_sb (s : State) (a : Nat) (v : Byte) : (s.writeByte a v).sb = s.sb := rfl
@[simp] theorem State.writeByte_inReset (s : State) (a : Nat) (v : Byte) : (s.writeByte a v).inReset = s.inReset := rfl
@[simp] theorem State.writeByte_schedule (s : State) (a : Nat) (v : Byte) : (s.writeByte a v).schedule = s.schedule := rfl
@[simp] theorem State.writeByte_readLog (s : State) (a : Nat) (v : Byte) : (s.writeByte a v).readLog = s.readLog := rfl

/-! ### CLEAR on the vector RAM (41_vector_memory.md R123) -/

@[simp] theorem State.zeroRam_params (s : State) : (s.zeroRam).params = s.params := rfl
@[simp] theorem State.zeroRam_cmd (s : State) : (s.zeroRam).cmd = s.cmd := rfl
@[simp] theorem State.zeroRam_opa (s : State) : (s.zeroRam).opa = s.opa := rfl
@[simp] theorem State.zeroRam_opb (s : State) : (s.zeroRam).opb = s.opb := rfl
@[simp] theorem State.zeroRam_lbscfg (s : State) : (s.zeroRam).lbscfg = s.lbscfg := rfl
@[simp] theorem State.zeroRam_sbscfg (s : State) : (s.zeroRam).sbscfg = s.sbscfg := rfl
@[simp] theorem State.zeroRam_result (s : State) : (s.zeroRam).result = s.result := rfl
@[simp] theorem State.zeroRam_busy (s : State) : (s.zeroRam).busy = s.busy := rfl
@[simp] theorem State.zeroRam_done (s : State) : (s.zeroRam).done = s.done := rfl
@[simp] theorem State.zeroRam_overrun (s : State) : (s.zeroRam).overrun = s.overrun := rfl
@[simp] theorem State.zeroRam_index (s : State) : (s.zeroRam).index = s.index := rfl
@[simp] theorem State.zeroRam_error (s : State) : (s.zeroRam).error = s.error := rfl
@[simp] theorem State.zeroRam_ie (s : State) : (s.zeroRam).ie = s.ie := rfl
@[simp] theorem State.zeroRam_lenbytes (s : State) : (s.zeroRam).lenbytes = s.lenbytes := rfl
@[simp] theorem State.zeroRam_nbits (s : State) : (s.zeroRam).nbits = s.nbits := rfl
@[simp] theorem State.zeroRam_lbs (s : State) : (s.zeroRam).lbs = s.lbs := rfl
@[simp] theorem State.zeroRam_sbs (s : State) : (s.zeroRam).sbs = s.sbs := rfl
@[simp] theorem State.zeroRam_ram (s : State) : (s.zeroRam).ram = [] := rfl
@[simp] theorem State.zeroRam_lb (s : State) : (s.zeroRam).lb = s.lb := rfl
@[simp] theorem State.zeroRam_sb (s : State) : (s.zeroRam).sb = s.sb := rfl
@[simp] theorem State.zeroRam_inReset (s : State) : (s.zeroRam).inReset = s.inReset := rfl
@[simp] theorem State.zeroRam_schedule (s : State) : (s.zeroRam).schedule = s.schedule := rfl
@[simp] theorem State.zeroRam_readLog (s : State) : (s.zeroRam).readLog = s.readLog := rfl

/-! ### The tables made undefined (42_index_build.md R149) -/

@[simp] theorem State.forgetTables_params (s : State) : (s.forgetTables).params = s.params := rfl
@[simp] theorem State.forgetTables_cmd (s : State) : (s.forgetTables).cmd = s.cmd := rfl
@[simp] theorem State.forgetTables_opa (s : State) : (s.forgetTables).opa = s.opa := rfl
@[simp] theorem State.forgetTables_opb (s : State) : (s.forgetTables).opb = s.opb := rfl
@[simp] theorem State.forgetTables_lbscfg (s : State) : (s.forgetTables).lbscfg = s.lbscfg := rfl
@[simp] theorem State.forgetTables_sbscfg (s : State) : (s.forgetTables).sbscfg = s.sbscfg := rfl
@[simp] theorem State.forgetTables_result (s : State) : (s.forgetTables).result = s.result := rfl
@[simp] theorem State.forgetTables_busy (s : State) : (s.forgetTables).busy = s.busy := rfl
@[simp] theorem State.forgetTables_done (s : State) : (s.forgetTables).done = s.done := rfl
@[simp] theorem State.forgetTables_overrun (s : State) : (s.forgetTables).overrun = s.overrun := rfl
@[simp] theorem State.forgetTables_index (s : State) : (s.forgetTables).index = s.index := rfl
@[simp] theorem State.forgetTables_error (s : State) : (s.forgetTables).error = s.error := rfl
@[simp] theorem State.forgetTables_ie (s : State) : (s.forgetTables).ie = s.ie := rfl
@[simp] theorem State.forgetTables_lenbytes (s : State) : (s.forgetTables).lenbytes = s.lenbytes := rfl
@[simp] theorem State.forgetTables_nbits (s : State) : (s.forgetTables).nbits = s.nbits := rfl
@[simp] theorem State.forgetTables_lbs (s : State) : (s.forgetTables).lbs = s.lbs := rfl
@[simp] theorem State.forgetTables_sbs (s : State) : (s.forgetTables).sbs = s.sbs := rfl
@[simp] theorem State.forgetTables_ram (s : State) : (s.forgetTables).ram = s.ram := rfl
@[simp] theorem State.forgetTables_lb (s : State) : (s.forgetTables).lb = [] := rfl
@[simp] theorem State.forgetTables_sb (s : State) : (s.forgetTables).sb = [] := rfl
@[simp] theorem State.forgetTables_inReset (s : State) : (s.forgetTables).inReset = s.inReset := rfl
@[simp] theorem State.forgetTables_schedule (s : State) : (s.forgetTables).schedule = s.schedule := rfl
@[simp] theorem State.forgetTables_readLog (s : State) : (s.forgetTables).readLog = s.readLog := rfl

/-! ### CLEAR on the index (41_vector_memory.md R123) -/

@[simp] theorem State.discardIndex_params (s : State) : (s.discardIndex).params = s.params := rfl
@[simp] theorem State.discardIndex_cmd (s : State) : (s.discardIndex).cmd = s.cmd := rfl
@[simp] theorem State.discardIndex_opa (s : State) : (s.discardIndex).opa = s.opa := rfl
@[simp] theorem State.discardIndex_opb (s : State) : (s.discardIndex).opb = s.opb := rfl
@[simp] theorem State.discardIndex_lbscfg (s : State) : (s.discardIndex).lbscfg = s.lbscfg := rfl
@[simp] theorem State.discardIndex_sbscfg (s : State) : (s.discardIndex).sbscfg = s.sbscfg := rfl
@[simp] theorem State.discardIndex_result (s : State) : (s.discardIndex).result = s.result := rfl
@[simp] theorem State.discardIndex_busy (s : State) : (s.discardIndex).busy = s.busy := rfl
@[simp] theorem State.discardIndex_done (s : State) : (s.discardIndex).done = s.done := rfl
@[simp] theorem State.discardIndex_overrun (s : State) : (s.discardIndex).overrun = s.overrun := rfl
@[simp] theorem State.discardIndex_index (s : State) : (s.discardIndex).index = .empty := rfl
@[simp] theorem State.discardIndex_error (s : State) : (s.discardIndex).error = s.error := rfl
@[simp] theorem State.discardIndex_ie (s : State) : (s.discardIndex).ie = s.ie := rfl
@[simp] theorem State.discardIndex_lenbytes (s : State) : (s.discardIndex).lenbytes = 0#32 := rfl
@[simp] theorem State.discardIndex_nbits (s : State) : (s.discardIndex).nbits = 0#32 := rfl
@[simp] theorem State.discardIndex_lbs (s : State) : (s.discardIndex).lbs = 0#32 := rfl
@[simp] theorem State.discardIndex_sbs (s : State) : (s.discardIndex).sbs = 0#32 := rfl
@[simp] theorem State.discardIndex_ram (s : State) : (s.discardIndex).ram = s.ram := rfl
@[simp] theorem State.discardIndex_lb (s : State) : (s.discardIndex).lb = [] := rfl
@[simp] theorem State.discardIndex_sb (s : State) : (s.discardIndex).sb = [] := rfl
@[simp] theorem State.discardIndex_inReset (s : State) : (s.discardIndex).inReset = s.inReset := rfl
@[simp] theorem State.discardIndex_schedule (s : State) : (s.discardIndex).schedule = s.schedule := rfl
@[simp] theorem State.discardIndex_readLog (s : State) : (s.discardIndex).readLog = s.readLog := rfl

/-! ### CREATE on the index (42_index_build.md R141) -/

@[simp] theorem State.newIndex_params (s : State) (len lbs sbs : Word) : (s.newIndex len lbs sbs).params = s.params := rfl
@[simp] theorem State.newIndex_cmd (s : State) (len lbs sbs : Word) : (s.newIndex len lbs sbs).cmd = s.cmd := rfl
@[simp] theorem State.newIndex_opa (s : State) (len lbs sbs : Word) : (s.newIndex len lbs sbs).opa = s.opa := rfl
@[simp] theorem State.newIndex_opb (s : State) (len lbs sbs : Word) : (s.newIndex len lbs sbs).opb = s.opb := rfl
@[simp] theorem State.newIndex_lbscfg (s : State) (len lbs sbs : Word) : (s.newIndex len lbs sbs).lbscfg = s.lbscfg := rfl
@[simp] theorem State.newIndex_sbscfg (s : State) (len lbs sbs : Word) : (s.newIndex len lbs sbs).sbscfg = s.sbscfg := rfl
@[simp] theorem State.newIndex_result (s : State) (len lbs sbs : Word) : (s.newIndex len lbs sbs).result = s.result := rfl
@[simp] theorem State.newIndex_busy (s : State) (len lbs sbs : Word) : (s.newIndex len lbs sbs).busy = s.busy := rfl
@[simp] theorem State.newIndex_done (s : State) (len lbs sbs : Word) : (s.newIndex len lbs sbs).done = s.done := rfl
@[simp] theorem State.newIndex_overrun (s : State) (len lbs sbs : Word) : (s.newIndex len lbs sbs).overrun = s.overrun := rfl
@[simp] theorem State.newIndex_index (s : State) (len lbs sbs : Word) : (s.newIndex len lbs sbs).index = .created := rfl
@[simp] theorem State.newIndex_error (s : State) (len lbs sbs : Word) : (s.newIndex len lbs sbs).error = s.error := rfl
@[simp] theorem State.newIndex_ie (s : State) (len lbs sbs : Word) : (s.newIndex len lbs sbs).ie = s.ie := rfl
@[simp] theorem State.newIndex_lenbytes (s : State) (len lbs sbs : Word) : (s.newIndex len lbs sbs).lenbytes = len := rfl
@[simp] theorem State.newIndex_nbits (s : State) (len lbs sbs : Word) : (s.newIndex len lbs sbs).nbits = toWord (8 * len.toNat) := rfl
@[simp] theorem State.newIndex_lbs (s : State) (len lbs sbs : Word) : (s.newIndex len lbs sbs).lbs = lbs := rfl
@[simp] theorem State.newIndex_sbs (s : State) (len lbs sbs : Word) : (s.newIndex len lbs sbs).sbs = sbs := rfl
@[simp] theorem State.newIndex_ram (s : State) (len lbs sbs : Word) : (s.newIndex len lbs sbs).ram = s.ram := rfl
@[simp] theorem State.newIndex_lb (s : State) (len lbs sbs : Word) : (s.newIndex len lbs sbs).lb = [] := rfl
@[simp] theorem State.newIndex_sb (s : State) (len lbs sbs : Word) : (s.newIndex len lbs sbs).sb = [] := rfl
@[simp] theorem State.newIndex_inReset (s : State) (len lbs sbs : Word) : (s.newIndex len lbs sbs).inReset = s.inReset := rfl
@[simp] theorem State.newIndex_schedule (s : State) (len lbs sbs : Word) : (s.newIndex len lbs sbs).schedule = s.schedule := rfl
@[simp] theorem State.newIndex_readLog (s : State) (len lbs sbs : Word) : (s.newIndex len lbs sbs).readLog = s.readLog := rfl

/-! ### BUILD on the tables (42_index_build.md R147) -/

@[simp] theorem State.fillTables_params (s : State) : (s.fillTables).params = s.params := rfl
@[simp] theorem State.fillTables_cmd (s : State) : (s.fillTables).cmd = s.cmd := rfl
@[simp] theorem State.fillTables_opa (s : State) : (s.fillTables).opa = s.opa := rfl
@[simp] theorem State.fillTables_opb (s : State) : (s.fillTables).opb = s.opb := rfl
@[simp] theorem State.fillTables_lbscfg (s : State) : (s.fillTables).lbscfg = s.lbscfg := rfl
@[simp] theorem State.fillTables_sbscfg (s : State) : (s.fillTables).sbscfg = s.sbscfg := rfl
@[simp] theorem State.fillTables_result (s : State) : (s.fillTables).result = s.result := rfl
@[simp] theorem State.fillTables_busy (s : State) : (s.fillTables).busy = s.busy := rfl
@[simp] theorem State.fillTables_done (s : State) : (s.fillTables).done = s.done := rfl
@[simp] theorem State.fillTables_overrun (s : State) : (s.fillTables).overrun = s.overrun := rfl
@[simp] theorem State.fillTables_index (s : State) : (s.fillTables).index = .built := rfl
@[simp] theorem State.fillTables_error (s : State) : (s.fillTables).error = s.error := rfl
@[simp] theorem State.fillTables_ie (s : State) : (s.fillTables).ie = s.ie := rfl
@[simp] theorem State.fillTables_lenbytes (s : State) : (s.fillTables).lenbytes = s.lenbytes := rfl
@[simp] theorem State.fillTables_nbits (s : State) : (s.fillTables).nbits = s.nbits := rfl
@[simp] theorem State.fillTables_lbs (s : State) : (s.fillTables).lbs = s.lbs := rfl
@[simp] theorem State.fillTables_sbs (s : State) : (s.fillTables).sbs = s.sbs := rfl
@[simp] theorem State.fillTables_ram (s : State) : (s.fillTables).ram = s.ram := rfl
@[simp] theorem State.fillTables_lb (s : State) : (s.fillTables).lb = (List.range (s.lastLb + 1)).map fun k => toWord (s.lbSnapshot k) := rfl
@[simp] theorem State.fillTables_sb (s : State) : (s.fillTables).sb = (List.range (s.lastSb + 1)).map fun j => toWord (s.sbSnapshot j) := rfl
@[simp] theorem State.fillTables_inReset (s : State) : (s.fillTables).inReset = s.inReset := rfl
@[simp] theorem State.fillTables_schedule (s : State) : (s.fillTables).schedule = s.schedule := rfl
@[simp] theorem State.fillTables_readLog (s : State) : (s.fillTables).readLog = s.readLog := rfl

/-! ### A host write to STATUS (10_state.md R27) -/

@[simp] theorem State.statusWrite_params (s : State) (v : Word) : (s.statusWrite v).params = s.params := rfl
@[simp] theorem State.statusWrite_cmd (s : State) (v : Word) : (s.statusWrite v).cmd = s.cmd := rfl
@[simp] theorem State.statusWrite_opa (s : State) (v : Word) : (s.statusWrite v).opa = s.opa := rfl
@[simp] theorem State.statusWrite_opb (s : State) (v : Word) : (s.statusWrite v).opb = s.opb := rfl
@[simp] theorem State.statusWrite_lbscfg (s : State) (v : Word) : (s.statusWrite v).lbscfg = s.lbscfg := rfl
@[simp] theorem State.statusWrite_sbscfg (s : State) (v : Word) : (s.statusWrite v).sbscfg = s.sbscfg := rfl
@[simp] theorem State.statusWrite_result (s : State) (v : Word) : (s.statusWrite v).result = s.result := rfl
@[simp] theorem State.statusWrite_busy (s : State) (v : Word) : (s.statusWrite v).busy = s.busy := rfl
@[simp] theorem State.statusWrite_done (s : State) (v : Word) : (s.statusWrite v).done = (s.done && !v.getLsbD 1) := rfl
@[simp] theorem State.statusWrite_overrun (s : State) (v : Word) : (s.statusWrite v).overrun = (s.overrun && !v.getLsbD 3) := rfl
@[simp] theorem State.statusWrite_index (s : State) (v : Word) : (s.statusWrite v).index = s.index := rfl
@[simp] theorem State.statusWrite_error (s : State) (v : Word) : (s.statusWrite v).error = s.error := rfl
@[simp] theorem State.statusWrite_ie (s : State) (v : Word) : (s.statusWrite v).ie = s.ie := rfl
@[simp] theorem State.statusWrite_lenbytes (s : State) (v : Word) : (s.statusWrite v).lenbytes = s.lenbytes := rfl
@[simp] theorem State.statusWrite_nbits (s : State) (v : Word) : (s.statusWrite v).nbits = s.nbits := rfl
@[simp] theorem State.statusWrite_lbs (s : State) (v : Word) : (s.statusWrite v).lbs = s.lbs := rfl
@[simp] theorem State.statusWrite_sbs (s : State) (v : Word) : (s.statusWrite v).sbs = s.sbs := rfl
@[simp] theorem State.statusWrite_ram (s : State) (v : Word) : (s.statusWrite v).ram = s.ram := rfl
@[simp] theorem State.statusWrite_lb (s : State) (v : Word) : (s.statusWrite v).lb = s.lb := rfl
@[simp] theorem State.statusWrite_sb (s : State) (v : Word) : (s.statusWrite v).sb = s.sb := rfl
@[simp] theorem State.statusWrite_inReset (s : State) (v : Word) : (s.statusWrite v).inReset = s.inReset := rfl
@[simp] theorem State.statusWrite_schedule (s : State) (v : Word) : (s.statusWrite v).schedule = s.schedule := rfl
@[simp] theorem State.statusWrite_readLog (s : State) (v : Word) : (s.statusWrite v).readLog = s.readLog := rfl

/-! ### A host write to CTRL (10_state.md R30) -/

@[simp] theorem State.ctrlWrite_params (s : State) (v : Word) : (s.ctrlWrite v).params = s.params := rfl
@[simp] theorem State.ctrlWrite_cmd (s : State) (v : Word) : (s.ctrlWrite v).cmd = s.cmd := rfl
@[simp] theorem State.ctrlWrite_opa (s : State) (v : Word) : (s.ctrlWrite v).opa = s.opa := rfl
@[simp] theorem State.ctrlWrite_opb (s : State) (v : Word) : (s.ctrlWrite v).opb = s.opb := rfl
@[simp] theorem State.ctrlWrite_lbscfg (s : State) (v : Word) : (s.ctrlWrite v).lbscfg = s.lbscfg := rfl
@[simp] theorem State.ctrlWrite_sbscfg (s : State) (v : Word) : (s.ctrlWrite v).sbscfg = s.sbscfg := rfl
@[simp] theorem State.ctrlWrite_result (s : State) (v : Word) : (s.ctrlWrite v).result = s.result := rfl
@[simp] theorem State.ctrlWrite_busy (s : State) (v : Word) : (s.ctrlWrite v).busy = s.busy := rfl
@[simp] theorem State.ctrlWrite_done (s : State) (v : Word) : (s.ctrlWrite v).done = s.done := rfl
@[simp] theorem State.ctrlWrite_overrun (s : State) (v : Word) : (s.ctrlWrite v).overrun = s.overrun := rfl
@[simp] theorem State.ctrlWrite_index (s : State) (v : Word) : (s.ctrlWrite v).index = s.index := rfl
@[simp] theorem State.ctrlWrite_error (s : State) (v : Word) : (s.ctrlWrite v).error = s.error := rfl
@[simp] theorem State.ctrlWrite_ie (s : State) (v : Word) : (s.ctrlWrite v).ie = v.getLsbD 0 := rfl
@[simp] theorem State.ctrlWrite_lenbytes (s : State) (v : Word) : (s.ctrlWrite v).lenbytes = s.lenbytes := rfl
@[simp] theorem State.ctrlWrite_nbits (s : State) (v : Word) : (s.ctrlWrite v).nbits = s.nbits := rfl
@[simp] theorem State.ctrlWrite_lbs (s : State) (v : Word) : (s.ctrlWrite v).lbs = s.lbs := rfl
@[simp] theorem State.ctrlWrite_sbs (s : State) (v : Word) : (s.ctrlWrite v).sbs = s.sbs := rfl
@[simp] theorem State.ctrlWrite_ram (s : State) (v : Word) : (s.ctrlWrite v).ram = s.ram := rfl
@[simp] theorem State.ctrlWrite_lb (s : State) (v : Word) : (s.ctrlWrite v).lb = s.lb := rfl
@[simp] theorem State.ctrlWrite_sb (s : State) (v : Word) : (s.ctrlWrite v).sb = s.sb := rfl
@[simp] theorem State.ctrlWrite_inReset (s : State) (v : Word) : (s.ctrlWrite v).inReset = s.inReset := rfl
@[simp] theorem State.ctrlWrite_schedule (s : State) (v : Word) : (s.ctrlWrite v).schedule = s.schedule := rfl
@[simp] theorem State.ctrlWrite_readLog (s : State) (v : Word) : (s.ctrlWrite v).readLog = s.readLog := rfl

/-! ### A host read delivered -/

@[simp] theorem State.deliver_params (s : State) (v : Word) : (s.deliver v).params = s.params := rfl
@[simp] theorem State.deliver_cmd (s : State) (v : Word) : (s.deliver v).cmd = s.cmd := rfl
@[simp] theorem State.deliver_opa (s : State) (v : Word) : (s.deliver v).opa = s.opa := rfl
@[simp] theorem State.deliver_opb (s : State) (v : Word) : (s.deliver v).opb = s.opb := rfl
@[simp] theorem State.deliver_lbscfg (s : State) (v : Word) : (s.deliver v).lbscfg = s.lbscfg := rfl
@[simp] theorem State.deliver_sbscfg (s : State) (v : Word) : (s.deliver v).sbscfg = s.sbscfg := rfl
@[simp] theorem State.deliver_result (s : State) (v : Word) : (s.deliver v).result = s.result := rfl
@[simp] theorem State.deliver_busy (s : State) (v : Word) : (s.deliver v).busy = s.busy := rfl
@[simp] theorem State.deliver_done (s : State) (v : Word) : (s.deliver v).done = s.done := rfl
@[simp] theorem State.deliver_overrun (s : State) (v : Word) : (s.deliver v).overrun = s.overrun := rfl
@[simp] theorem State.deliver_index (s : State) (v : Word) : (s.deliver v).index = s.index := rfl
@[simp] theorem State.deliver_error (s : State) (v : Word) : (s.deliver v).error = s.error := rfl
@[simp] theorem State.deliver_ie (s : State) (v : Word) : (s.deliver v).ie = s.ie := rfl
@[simp] theorem State.deliver_lenbytes (s : State) (v : Word) : (s.deliver v).lenbytes = s.lenbytes := rfl
@[simp] theorem State.deliver_nbits (s : State) (v : Word) : (s.deliver v).nbits = s.nbits := rfl
@[simp] theorem State.deliver_lbs (s : State) (v : Word) : (s.deliver v).lbs = s.lbs := rfl
@[simp] theorem State.deliver_sbs (s : State) (v : Word) : (s.deliver v).sbs = s.sbs := rfl
@[simp] theorem State.deliver_ram (s : State) (v : Word) : (s.deliver v).ram = s.ram := rfl
@[simp] theorem State.deliver_lb (s : State) (v : Word) : (s.deliver v).lb = s.lb := rfl
@[simp] theorem State.deliver_sb (s : State) (v : Word) : (s.deliver v).sb = s.sb := rfl
@[simp] theorem State.deliver_inReset (s : State) (v : Word) : (s.deliver v).inReset = s.inReset := rfl
@[simp] theorem State.deliver_schedule (s : State) (v : Word) : (s.deliver v).schedule = s.schedule := rfl
@[simp] theorem State.deliver_readLog (s : State) (v : Word) : (s.deliver v).readLog = v :: s.readLog := rfl

/-! ### Reset finished (70_reset_and_hazards.md R240) -/

@[simp] theorem State.finishReset_params (s : State) : (s.finishReset).params = s.params := rfl
@[simp] theorem State.finishReset_cmd (s : State) : (s.finishReset).cmd = s.cmd := rfl
@[simp] theorem State.finishReset_opa (s : State) : (s.finishReset).opa = s.opa := rfl
@[simp] theorem State.finishReset_opb (s : State) : (s.finishReset).opb = s.opb := rfl
@[simp] theorem State.finishReset_lbscfg (s : State) : (s.finishReset).lbscfg = s.lbscfg := rfl
@[simp] theorem State.finishReset_sbscfg (s : State) : (s.finishReset).sbscfg = s.sbscfg := rfl
@[simp] theorem State.finishReset_result (s : State) : (s.finishReset).result = s.result := rfl
@[simp] theorem State.finishReset_busy (s : State) : (s.finishReset).busy = s.busy := rfl
@[simp] theorem State.finishReset_done (s : State) : (s.finishReset).done = s.done := rfl
@[simp] theorem State.finishReset_overrun (s : State) : (s.finishReset).overrun = s.overrun := rfl
@[simp] theorem State.finishReset_index (s : State) : (s.finishReset).index = s.index := rfl
@[simp] theorem State.finishReset_error (s : State) : (s.finishReset).error = s.error := rfl
@[simp] theorem State.finishReset_ie (s : State) : (s.finishReset).ie = s.ie := rfl
@[simp] theorem State.finishReset_lenbytes (s : State) : (s.finishReset).lenbytes = s.lenbytes := rfl
@[simp] theorem State.finishReset_nbits (s : State) : (s.finishReset).nbits = s.nbits := rfl
@[simp] theorem State.finishReset_lbs (s : State) : (s.finishReset).lbs = s.lbs := rfl
@[simp] theorem State.finishReset_sbs (s : State) : (s.finishReset).sbs = s.sbs := rfl
@[simp] theorem State.finishReset_ram (s : State) : (s.finishReset).ram = s.ram := rfl
@[simp] theorem State.finishReset_lb (s : State) : (s.finishReset).lb = s.lb := rfl
@[simp] theorem State.finishReset_sb (s : State) : (s.finishReset).sb = s.sb := rfl
@[simp] theorem State.finishReset_inReset (s : State) : (s.finishReset).inReset = false := rfl
@[simp] theorem State.finishReset_schedule (s : State) : (s.finishReset).schedule = s.schedule := rfl
@[simp] theorem State.finishReset_readLog (s : State) : (s.finishReset).readLog = s.readLog := rfl

/-! ### The turn taken has left the schedule -/

@[simp] theorem State.afterTurn_params (s : State) (rest : List Turn) : (s.afterTurn rest).params = s.params := rfl
@[simp] theorem State.afterTurn_cmd (s : State) (rest : List Turn) : (s.afterTurn rest).cmd = s.cmd := rfl
@[simp] theorem State.afterTurn_opa (s : State) (rest : List Turn) : (s.afterTurn rest).opa = s.opa := rfl
@[simp] theorem State.afterTurn_opb (s : State) (rest : List Turn) : (s.afterTurn rest).opb = s.opb := rfl
@[simp] theorem State.afterTurn_lbscfg (s : State) (rest : List Turn) : (s.afterTurn rest).lbscfg = s.lbscfg := rfl
@[simp] theorem State.afterTurn_sbscfg (s : State) (rest : List Turn) : (s.afterTurn rest).sbscfg = s.sbscfg := rfl
@[simp] theorem State.afterTurn_result (s : State) (rest : List Turn) : (s.afterTurn rest).result = s.result := rfl
@[simp] theorem State.afterTurn_busy (s : State) (rest : List Turn) : (s.afterTurn rest).busy = s.busy := rfl
@[simp] theorem State.afterTurn_done (s : State) (rest : List Turn) : (s.afterTurn rest).done = s.done := rfl
@[simp] theorem State.afterTurn_overrun (s : State) (rest : List Turn) : (s.afterTurn rest).overrun = s.overrun := rfl
@[simp] theorem State.afterTurn_index (s : State) (rest : List Turn) : (s.afterTurn rest).index = s.index := rfl
@[simp] theorem State.afterTurn_error (s : State) (rest : List Turn) : (s.afterTurn rest).error = s.error := rfl
@[simp] theorem State.afterTurn_ie (s : State) (rest : List Turn) : (s.afterTurn rest).ie = s.ie := rfl
@[simp] theorem State.afterTurn_lenbytes (s : State) (rest : List Turn) : (s.afterTurn rest).lenbytes = s.lenbytes := rfl
@[simp] theorem State.afterTurn_nbits (s : State) (rest : List Turn) : (s.afterTurn rest).nbits = s.nbits := rfl
@[simp] theorem State.afterTurn_lbs (s : State) (rest : List Turn) : (s.afterTurn rest).lbs = s.lbs := rfl
@[simp] theorem State.afterTurn_sbs (s : State) (rest : List Turn) : (s.afterTurn rest).sbs = s.sbs := rfl
@[simp] theorem State.afterTurn_ram (s : State) (rest : List Turn) : (s.afterTurn rest).ram = s.ram := rfl
@[simp] theorem State.afterTurn_lb (s : State) (rest : List Turn) : (s.afterTurn rest).lb = s.lb := rfl
@[simp] theorem State.afterTurn_sb (s : State) (rest : List Turn) : (s.afterTurn rest).sb = s.sb := rfl
@[simp] theorem State.afterTurn_inReset (s : State) (rest : List Turn) : (s.afterTurn rest).inReset = s.inReset := rfl
@[simp] theorem State.afterTurn_schedule (s : State) (rest : List Turn) : (s.afterTurn rest).schedule = rest := rfl
@[simp] theorem State.afterTurn_readLog (s : State) (rest : List Turn) : (s.afterTurn rest).readLog = s.readLog := rfl

/-! ### A command accepted, the engine next -/

@[simp] theorem State.acceptedNext_params (s : State) (w : Word) : (s.acceptedNext w).params = s.params := rfl
@[simp] theorem State.acceptedNext_cmd (s : State) (w : Word) : (s.acceptedNext w).cmd = w := rfl
@[simp] theorem State.acceptedNext_opa (s : State) (w : Word) : (s.acceptedNext w).opa = s.opa := rfl
@[simp] theorem State.acceptedNext_opb (s : State) (w : Word) : (s.acceptedNext w).opb = s.opb := rfl
@[simp] theorem State.acceptedNext_lbscfg (s : State) (w : Word) : (s.acceptedNext w).lbscfg = s.lbscfg := rfl
@[simp] theorem State.acceptedNext_sbscfg (s : State) (w : Word) : (s.acceptedNext w).sbscfg = s.sbscfg := rfl
@[simp] theorem State.acceptedNext_result (s : State) (w : Word) : (s.acceptedNext w).result = s.result := rfl
@[simp] theorem State.acceptedNext_busy (s : State) (w : Word) : (s.acceptedNext w).busy = true := rfl
@[simp] theorem State.acceptedNext_done (s : State) (w : Word) : (s.acceptedNext w).done = false := rfl
@[simp] theorem State.acceptedNext_overrun (s : State) (w : Word) : (s.acceptedNext w).overrun = s.overrun := rfl
@[simp] theorem State.acceptedNext_index (s : State) (w : Word) : (s.acceptedNext w).index = s.index := rfl
@[simp] theorem State.acceptedNext_error (s : State) (w : Word) : (s.acceptedNext w).error = s.error := rfl
@[simp] theorem State.acceptedNext_ie (s : State) (w : Word) : (s.acceptedNext w).ie = s.ie := rfl
@[simp] theorem State.acceptedNext_lenbytes (s : State) (w : Word) : (s.acceptedNext w).lenbytes = s.lenbytes := rfl
@[simp] theorem State.acceptedNext_nbits (s : State) (w : Word) : (s.acceptedNext w).nbits = s.nbits := rfl
@[simp] theorem State.acceptedNext_lbs (s : State) (w : Word) : (s.acceptedNext w).lbs = s.lbs := rfl
@[simp] theorem State.acceptedNext_sbs (s : State) (w : Word) : (s.acceptedNext w).sbs = s.sbs := rfl
@[simp] theorem State.acceptedNext_ram (s : State) (w : Word) : (s.acceptedNext w).ram = s.ram := rfl
@[simp] theorem State.acceptedNext_lb (s : State) (w : Word) : (s.acceptedNext w).lb = s.lb := rfl
@[simp] theorem State.acceptedNext_sb (s : State) (w : Word) : (s.acceptedNext w).sb = s.sb := rfl
@[simp] theorem State.acceptedNext_inReset (s : State) (w : Word) : (s.acceptedNext w).inReset = false := rfl
@[simp] theorem State.acceptedNext_schedule (s : State) (w : Word) : (s.acceptedNext w).schedule = .engine :: s.schedule := rfl
@[simp] theorem State.acceptedNext_readLog (s : State) (w : Word) : (s.acceptedNext w).readLog = s.readLog := rfl

/-! ### Reset asserted (70_reset_and_hazards.md R240) -/

@[simp] theorem State.assertReset_params (s : State) : (s.assertReset).params = s.params := rfl
@[simp] theorem State.assertReset_cmd (s : State) : (s.assertReset).cmd = 0#32 := rfl
@[simp] theorem State.assertReset_opa (s : State) : (s.assertReset).opa = 0#32 := rfl
@[simp] theorem State.assertReset_opb (s : State) : (s.assertReset).opb = 0#32 := rfl
@[simp] theorem State.assertReset_lbscfg (s : State) : (s.assertReset).lbscfg = 256#32 := rfl
@[simp] theorem State.assertReset_sbscfg (s : State) : (s.assertReset).sbscfg = 32#32 := rfl
@[simp] theorem State.assertReset_result (s : State) : (s.assertReset).result = 0#32 := rfl
@[simp] theorem State.assertReset_busy (s : State) : (s.assertReset).busy = false := rfl
@[simp] theorem State.assertReset_done (s : State) : (s.assertReset).done = false := rfl
@[simp] theorem State.assertReset_overrun (s : State) : (s.assertReset).overrun = false := rfl
@[simp] theorem State.assertReset_index (s : State) : (s.assertReset).index = .empty := rfl
@[simp] theorem State.assertReset_error (s : State) : (s.assertReset).error = none := rfl
@[simp] theorem State.assertReset_ie (s : State) : (s.assertReset).ie = false := rfl
@[simp] theorem State.assertReset_lenbytes (s : State) : (s.assertReset).lenbytes = 0#32 := rfl
@[simp] theorem State.assertReset_nbits (s : State) : (s.assertReset).nbits = 0#32 := rfl
@[simp] theorem State.assertReset_lbs (s : State) : (s.assertReset).lbs = 0#32 := rfl
@[simp] theorem State.assertReset_sbs (s : State) : (s.assertReset).sbs = 0#32 := rfl
@[simp] theorem State.assertReset_ram (s : State) : (s.assertReset).ram = [] := rfl
@[simp] theorem State.assertReset_lb (s : State) : (s.assertReset).lb = [] := rfl
@[simp] theorem State.assertReset_sb (s : State) : (s.assertReset).sb = [] := rfl
@[simp] theorem State.assertReset_inReset (s : State) : (s.assertReset).inReset = true := rfl
@[simp] theorem State.assertReset_schedule (s : State) : (s.assertReset).schedule = s.schedule := rfl
@[simp] theorem State.assertReset_readLog (s : State) : (s.assertReset).readLog = s.readLog := rfl

/-! ### The state after reset (10_state.md R42) -/

@[simp] theorem State.resetFor_params (p : Params) : (State.resetFor p).params = p := rfl
@[simp] theorem State.resetFor_cmd (p : Params) : (State.resetFor p).cmd = 0#32 := rfl
@[simp] theorem State.resetFor_opa (p : Params) : (State.resetFor p).opa = 0#32 := rfl
@[simp] theorem State.resetFor_opb (p : Params) : (State.resetFor p).opb = 0#32 := rfl
@[simp] theorem State.resetFor_lbscfg (p : Params) : (State.resetFor p).lbscfg = 256#32 := rfl
@[simp] theorem State.resetFor_sbscfg (p : Params) : (State.resetFor p).sbscfg = 32#32 := rfl
@[simp] theorem State.resetFor_result (p : Params) : (State.resetFor p).result = 0#32 := rfl
@[simp] theorem State.resetFor_busy (p : Params) : (State.resetFor p).busy = false := rfl
@[simp] theorem State.resetFor_done (p : Params) : (State.resetFor p).done = false := rfl
@[simp] theorem State.resetFor_overrun (p : Params) : (State.resetFor p).overrun = false := rfl
@[simp] theorem State.resetFor_index (p : Params) : (State.resetFor p).index = .empty := rfl
@[simp] theorem State.resetFor_error (p : Params) : (State.resetFor p).error = none := rfl
@[simp] theorem State.resetFor_ie (p : Params) : (State.resetFor p).ie = false := rfl
@[simp] theorem State.resetFor_lenbytes (p : Params) : (State.resetFor p).lenbytes = 0#32 := rfl
@[simp] theorem State.resetFor_nbits (p : Params) : (State.resetFor p).nbits = 0#32 := rfl
@[simp] theorem State.resetFor_lbs (p : Params) : (State.resetFor p).lbs = 0#32 := rfl
@[simp] theorem State.resetFor_sbs (p : Params) : (State.resetFor p).sbs = 0#32 := rfl
@[simp] theorem State.resetFor_ram (p : Params) : (State.resetFor p).ram = [] := rfl
@[simp] theorem State.resetFor_lb (p : Params) : (State.resetFor p).lb = [] := rfl
@[simp] theorem State.resetFor_sb (p : Params) : (State.resetFor p).sb = [] := rfl
@[simp] theorem State.resetFor_inReset (p : Params) : (State.resetFor p).inReset = false := rfl
@[simp] theorem State.resetFor_schedule (p : Params) : (State.resetFor p).schedule = [] := rfl
@[simp] theorem State.resetFor_readLog (p : Params) : (State.resetFor p).readLog = [] := rfl

end Sys2Proof.Machine
end

