-- ==== Sys2Proof/Laws/Memory.lean ====
section
/-! SUPPORT. The laws of the vector RAM: read after write, and that every write keeps the canonical form and the bound on
addresses. -/

namespace Sys2Proof.Machine

@[simp] theorem Memory.read_nil (a : Nat) : Memory.read [] a = 0#8 := rfl

theorem Memory.WF.tail {c : Host.Cell} {m : Memory} (h : Memory.WF (c :: m)) : Memory.WF m :=
  ⟨h.1.of_cons, fun d hd => h.2 d (List.mem_cons_of_mem _ hd)⟩

theorem Memory.WF.head_lt {c : Host.Cell} {m : Memory} (h : Memory.WF (c :: m)) : ∀ d ∈ m, c.1 < d.1 :=
  fun _ hd => List.rel_of_pairwise_cons h.1 hd

/-- An address below every listed one reads as unlisted. -/
theorem Memory.read_of_lt {m : Memory} {a : Nat} (h : ∀ d ∈ m, a < d.1) : m.read a = Config.unlistedByte := by
  induction m with
  | nil => rfl
  | cons c m ih =>
    have hc := h c (by simp)
    simp only [Memory.read]
    rw [if_neg (by omega)]
    exact ih fun d hd => h d (List.mem_cons_of_mem _ hd)

/-- In canonical form the byte written is the byte read. -/
theorem Memory.read_write_same {m : Memory} (h : m.WF) (a : Nat) (v : Byte) : (m.write a v).read a = v := by
  induction m with
  | nil =>
    simp only [Memory.write]
    split
    next hv => rw [hv]; rfl
    next => simp [Memory.read]
  | cons c m ih =>
    have hlt := h.head_lt
    simp only [Memory.write]
    split
    · split
      next hv =>
        subst hv
        exact Memory.read_of_lt (List.forall_mem_cons.2 ⟨by assumption, fun d hd => by have := hlt d hd; omega⟩)
      next => simp [Memory.read]
    · split
      · next hk =>
        subst hk
        split
        next hv => subst hv; exact Memory.read_of_lt hlt
        next => simp [Memory.read]
      · simp only [Memory.read]
        rw [if_neg (by omega)]
        exact ih h.tail

/-- In canonical form a write leaves every other byte alone. -/
theorem Memory.read_write_other {m : Memory} (h : m.WF) {a b : Nat} (v : Byte) (hab : b ≠ a) :
    (m.write a v).read b = m.read b := by
  induction m with
  | nil =>
    simp only [Memory.write]
    split
    · rfl
    · simp only [Memory.read]
      rw [if_neg (Ne.symm hab)]
  | cons c m ih =>
    have hlt := h.head_lt
    simp only [Memory.write]
    split
    · split
      · rfl
      · simp only [Memory.read]
        rw [if_neg (by omega)]
    · split
      · next hk =>
        subst hk
        split
        · simp only [Memory.read]
          rw [if_neg (by omega)]
        · simp only [Memory.read]
          rw [if_neg (by omega), if_neg (by omega)]
      · simp only [Memory.read]
        split
        · rfl
        · exact ih h.tail

/-- What a write lists is the cell written or was listed before. -/
theorem Memory.mem_write {m : Memory} {a : Nat} {v : Byte} {c : Host.Cell} (hc : c ∈ m.write a v) :
    (c = (a, v) ∧ v ≠ Config.unlistedByte) ∨ c ∈ m := by
  induction m with
  | nil =>
    by_cases hv : v = Config.unlistedByte
    · simp [Memory.write, hv] at hc
    · simp only [Memory.write, if_neg hv, List.mem_singleton] at hc
      exact .inl ⟨hc, hv⟩
  | cons d m ih =>
    simp only [Memory.write] at hc
    split at hc
    · split at hc
      · exact .inr hc
      · next hv => exact (List.mem_cons.1 hc).imp (fun h => ⟨h, hv⟩) id
    · split at hc
      · split at hc
        · exact .inr (List.mem_cons_of_mem _ hc)
        · next hv =>
          exact (List.mem_cons.1 hc).imp (fun h => ⟨h, hv⟩) (List.mem_cons_of_mem _)
      · rcases List.mem_cons.1 hc with h | h
        · exact .inr (h ▸ List.mem_cons_self)
        · exact (ih h).imp id (List.mem_cons_of_mem _)

/-- Every write keeps the canonical form. -/
theorem Memory.write_wf {m : Memory} (h : m.WF) (a : Nat) (v : Byte) : (m.write a v).WF := by
  refine ⟨?_, fun c hc => ?_⟩
  · induction m with
    | nil => by_cases hv : v = Config.unlistedByte <;> simp [Memory.write, hv]
    | cons d m ih =>
      have hlt := h.head_lt
      have ht : List.Pairwise (fun x y : Host.Cell => x.1 < y.1) m := h.tail.1
      simp only [Memory.write]
      split
      · split
        · exact h.1
        · refine List.pairwise_cons.2 ⟨List.forall_mem_cons.2 ⟨by assumption, fun e he => ?_⟩, h.1⟩
          have := hlt e he
          simp only
          omega
      · split
        · next hk =>
          subst hk
          split
          · exact ht
          · exact List.pairwise_cons.2 ⟨hlt, ht⟩
        · refine List.pairwise_cons.2 ⟨fun e he => ?_, ih h.tail⟩
          rcases Memory.mem_write he with ⟨he, -⟩ | he
          · subst he
            simp only
            omega
          · exact hlt e he
  · rcases Memory.mem_write hc with ⟨rfl, hv⟩ | hc
    · exact hv
    · exact h.2 c hc

/-- A write below `n` lists nothing at or above `n` that was not listed before. -/
theorem Memory.write_below {m : Memory} {n : Nat} (h : m.Below n) {a : Nat} (ha : a < n) (v : Byte) :
    (m.write a v).Below n := by
  intro c hc
  rcases Memory.mem_write hc with ⟨rfl, -⟩ | hc
  · exact ha
  · exact h c hc

/-- The empty list is in canonical form: after reset and after CLEAR (70_reset_and_hazards.md R242). -/
theorem Memory.nil_wf : Memory.WF [] := by simp [Memory.WF]

/-- Equal memories are equal data: in canonical form, what is read says which list it is. -/
theorem Memory.eq_of_read_eq {m m' : Memory} (h : m.WF) (h' : m'.WF) (hr : ∀ a, m.read a = m'.read a) : m = m' := by
  induction m generalizing m' with
  | nil =>
    cases m' with
    | nil => rfl
    | cons c m' =>
      have := hr c.1
      rw [Memory.read_nil, Memory.read, if_pos rfl] at this
      exact absurd this.symm (h'.2 c (by simp))
  | cons c m ih =>
    cases m' with
    | nil =>
      have := hr c.1
      rw [Memory.read_nil, Memory.read, if_pos rfl] at this
      exact absurd this (h.2 c (by simp))
    | cons d m' =>
      have hcd : c.1 = d.1 := by
        rcases Nat.lt_trichotomy c.1 d.1 with hlt | heq | hlt
        · have := hr c.1
          rw [Memory.read, if_pos rfl, Memory.read, if_neg (by omega),
            Memory.read_of_lt fun e he => Nat.lt_trans hlt (h'.head_lt e he)] at this
          exact absurd this (h.2 c (by simp))
        · exact heq
        · have := hr d.1
          rw [Memory.read, if_neg (by omega), Memory.read_of_lt fun e he => Nat.lt_trans hlt (h.head_lt e he),
            Memory.read, if_pos rfl] at this
          exact absurd this.symm (h'.2 d (by simp))
      have hv : c.2 = d.2 := by
        have := hr c.1
        rwa [Memory.read, if_pos rfl, Memory.read, if_pos hcd.symm] at this
      have hm : m = m' := by
        refine ih h.tail h'.tail fun a => ?_
        by_cases ha : a = c.1
        · rw [ha, Memory.read_of_lt h.head_lt, hcd, Memory.read_of_lt h'.head_lt]
        · have := hr a
          rwa [Memory.read, if_neg (fun e => ha e.symm), Memory.read, if_neg (fun e => ha (e.symm.trans hcd.symm))]
            at this
      rw [hm, Prod.ext hcd hv]

end Sys2Proof.Machine
end

