-- ==== Sys2Proof/Laws/BitVector.lean ====
section
/-! SUPPORT. The laws of the bit-vector: counts in the model's recursion are the sizes of the spec's sets, and depend on
nothing but the vector RAM; rank and select in terms of counts. -/

namespace Sys2Proof.Machine

/-- The model's bit is the spec's (20_memory.md R61). -/
theorem State.bit_eq_bitAt (s : State) (i : Nat) : s.bit i = Spec.bitAt s i := by
  simp only [State.bit, Spec.bitAt, BitVec.getLsbD, Nat.testBit, Nat.shiftRight_eq_div_pow]
  rw [Nat.one_and_eq_mod_two]
  rcases Nat.mod_two_eq_zero_or_one ((s.readByte (i / 8)).toNat / 2 ^ (7 - i % 8)) with h | h <;> simp [h]

@[simp] theorem State.count_self (s : State) (b : Bool) (lo : Nat) : s.count b lo lo = 0 := by
  simp [State.count, State.countFrom]

/-- One more position. -/
theorem State.count_succ (s : State) (b : Bool) {lo hi : Nat} (h : lo ≤ hi) :
    s.count b lo (hi + 1) = s.count b lo hi + (if s.bit hi = b then 1 else 0) := by
  simp only [State.count]
  rw [show hi + 1 - lo = (hi - lo) + 1 by omega, State.countFrom, show lo + (hi - lo) = hi by omega]

theorem State.count_of_le (s : State) (b : Bool) {lo hi : Nat} (h : hi ≤ lo) : s.count b lo hi = 0 := by
  simp [State.count, Nat.sub_eq_zero_of_le h, State.countFrom]

/-- A count is the size of the spec's set of positions (00_scope.md R13). -/
theorem State.count_eq_spec (s : State) (b : Bool) (lo hi : Nat) : s.count b lo hi = Spec.count s b lo hi := by
  rcases Nat.le_total hi lo with h | h
  · simp [State.count_of_le s b h, Spec.count, Finset.Ico_eq_empty_of_le h]
  · induction hi, h using Nat.le_induction with
    | base => simp [Spec.count]
    | succ hi h ih =>
      have hico : Finset.Ico lo (hi + 1) = insert hi (Finset.Ico lo hi) := by
        ext x; simp only [Finset.mem_Ico, Finset.mem_insert]; omega
      rw [State.count_succ s b h, ih, Spec.count, Spec.count, hico, Finset.filter_insert, ← State.bit_eq_bitAt]
      split
      · rw [Finset.card_insert_of_notMem (by simp)]
      · rfl

/-- A range of positions may be cut anywhere. -/
theorem State.count_split (s : State) (b : Bool) {lo mid hi : Nat} (h₁ : lo ≤ mid) (h₂ : mid ≤ hi) :
    s.count b lo hi = s.count b lo mid + s.count b mid hi := by
  induction hi, h₂ using Nat.le_induction with
  | base => simp
  | succ hi h ih => rw [State.count_succ s b (by omega), State.count_succ s b h, ih]; omega

theorem State.count_le (s : State) (b : Bool) (lo hi : Nat) : s.count b lo hi ≤ hi - lo := by
  rcases Nat.le_total hi lo with h | h
  · simp [State.count_of_le s b h]
  · induction hi, h using Nat.le_induction with
    | base => simp
    | succ hi h ih => rw [State.count_succ s b h]; split <;> omega

/-- The 0 bits are the positions that are no 1 bits (00_scope.md R14). -/
theorem State.count_false_add_true (s : State) (lo hi : Nat) :
    s.count false lo hi + s.count true lo hi = hi - lo := by
  rcases Nat.le_total hi lo with h | h
  · simp [State.count_of_le s _ h]; omega
  · induction hi, h using Nat.le_induction with
    | base => simp
    | succ hi h ih =>
      rw [State.count_succ s _ h, State.count_succ s _ h]
      cases s.bit hi <;> simp <;> omega

theorem State.count_mono (s : State) (b : Bool) {lo hi hi' : Nat} (h : hi ≤ hi') :
    s.count b lo hi ≤ s.count b lo hi' := by
  rcases Nat.le_total hi lo with h' | h'
  · simp [State.count_of_le s b h']
  · rw [State.count_split s b h' h]; omega

/-- A count depends on the bytes it covers alone. -/
theorem State.count_congr {s t : State} (b : Bool) {lo hi : Nat}
    (h : ∀ i, lo ≤ i → i < hi → s.readByte (i / 8) = t.readByte (i / 8)) : s.count b lo hi = t.count b lo hi := by
  rcases Nat.le_total hi lo with h' | h'
  · simp [State.count_of_le _ b h']
  · induction hi, h' using Nat.le_induction with
    | base => simp
    | succ hi hl ih =>
      rw [State.count_succ s b hl, State.count_succ t b hl, ih fun i h₁ h₂ => h i h₁ (by omega)]
      rw [State.bit, State.bit, h hi hl (by omega)]

/-- A count depends on nothing but the vector RAM. -/
theorem State.count_of_ram_eq {s t : State} (h : s.ram = t.ram) (b : Bool) (lo hi : Nat) :
    s.count b lo hi = t.count b lo hi :=
  State.count_congr b fun _ _ _ => by simp [State.readByte, h]

theorem State.spec_count_of_ram_eq {s t : State} (h : s.ram = t.ram) (b : Bool) (lo hi : Nat) :
    Spec.count s b lo hi = Spec.count t b lo hi := by
  rw [← State.count_eq_spec, ← State.count_eq_spec, State.count_of_ram_eq h]

/-- rank_b(i) is the count of `b` below `i` (00_scope.md R14). -/
theorem State.rank_eq_count (s : State) (b : Bool) (i : Nat) : s.rank b i = s.count b 0 i := by
  have := s.count_false_add_true 0 i
  cases b <;> simp [State.rank, State.ones]; omega

theorem State.total_eq_count (s : State) (b : Bool) : s.total b = s.count b 0 s.nbits.toNat := by
  rw [State.total, State.rank_eq_count, State.bitLen]

/-- A count of `n` is reached at some position, the bit there being the n-th. -/
theorem State.exists_count_eq (s : State) (b : Bool) {n hi : Nat} (h₁ : 1 ≤ n) (h₂ : n ≤ s.count b 0 hi) :
    ∃ p, p < hi ∧ s.count b 0 (p + 1) = n := by
  induction hi with
  | zero => simp at h₂; omega
  | succ hi ih =>
    by_cases h : n ≤ s.count b 0 hi
    · obtain ⟨p, hp, hc⟩ := ih h
      exact ⟨p, by omega, hc⟩
    · refine ⟨hi, by omega, ?_⟩
      rw [State.count_succ s b (Nat.zero_le _)] at h₂ ⊢
      split at h₂ <;> simp_all <;> omega

/-- select_b(n) is the least position whose count reaches n (00_scope.md R14). -/
theorem State.selectPos_isLeast (s : State) (b : Bool) {n : Nat} (h₁ : 1 ≤ n) (h₂ : n ≤ s.count b 0 s.nbits.toNat) :
    IsLeast { p | p < s.nbits.toNat ∧ s.count b 0 (p + 1) = n } (s.selectPos b n) := by
  obtain ⟨p, hp, hc⟩ := s.exists_count_eq b h₁ h₂
  have hlt : s.selectPos b n < (List.range s.bitLen).length :=
    List.findIdx_lt_length_of_exists ⟨p, by simpa [State.bitLen] using hp, by simpa using hc⟩
  have hget : s.count b 0 (s.selectPos b n + 1) = n := by
    have h := beq_iff_eq.1 (List.findIdx_getElem (w := hlt))
    have e : (List.range s.bitLen)[s.selectPos b n]'hlt = s.selectPos b n := List.getElem_range _
    exact (congrArg (fun p => s.count b 0 (p + 1)) e).symm.trans h
  refine ⟨⟨by simpa [State.bitLen] using hlt, hget⟩, fun q ⟨hq, hcq⟩ => ?_⟩
  by_contra hcon
  have := List.not_of_lt_findIdx (Nat.lt_of_not_le hcon)
  simp [hcq] at this

end Sys2Proof.Machine
end

