-- ==== Sys2Proof/Laws/Operands.lean ====
section
/-! SUPPORT. What each operand form answers (30_encoding.md R84). -/

namespace Sys2Proof.Machine

theorem byteOperand_of_le {v : Word} (h : v.toNat ≤ 0xFF) : byteOperand v = some (v.setWidth 8) := by
  simp [byteOperand, h]

theorem byteOperand_of_gt {v : Word} (h : 0xFF < v.toNat) : byteOperand v = none := by
  simp [byteOperand, Nat.not_le.2 h]

/-- A byte operand keeps the register's value. -/
theorem setWidth_toNat_of_le {v : Word} (h : v.toNat ≤ 0xFF) : (v.setWidth 8).toNat = v.toNat := by
  rw [BitVec.toNat_setWidth]; omega

theorem bitOperand_of_eq {v : Word} {b : Bool} (h : v.toNat = b.toNat) : bitOperand v = some b := by
  have : v = BitVec.ofNat 32 b.toNat := BitVec.eq_of_toNat_eq (by rw [h]; cases b <;> rfl)
  subst this
  cases b <;> rfl

theorem bitOperand_of_gt {v : Word} (h : 1 < v.toNat) : bitOperand v = none := by
  have h₀ : v ≠ 0#32 := fun e => by simp [e] at h
  have h₁ : v ≠ 1#32 := fun e => by simp [e] at h
  simp [bitOperand, h₀, h₁]

theorem byteAddressOperand_of_lt {s : State} {v : Word} (h : v.toNat < s.params.maxBytes.toNat) :
    byteAddressOperand s v = some v.toNat := by simp [byteAddressOperand, h]

theorem byteAddressOperand_of_ge {s : State} {v : Word} (h : s.params.maxBytes.toNat ≤ v.toNat) :
    byteAddressOperand s v = none := by simp [byteAddressOperand, Nat.not_lt.2 h]

theorem toWord_toNat {n : Nat} (h : n < 2 ^ 32) : (toWord n).toNat = n := by
  rw [toWord, BitVec.toNat_ofNat, Nat.mod_eq_of_lt h]

end Sys2Proof.Machine
end

