-- ==== Sys2Proof/Laws/Commands.lean ====
section
/-! SUPPORT. Everything a command can do, said once for each: it fails with one of its causes, or it completes with a
result over the change it makes. Provers cite these lemmas instead of unfolding the meanings. -/

namespace Sys2Proof.Machine

theorem execPopcnt8_cases (s : State) :
    (0xFF < s.opa.toNat ∧ exec .popcnt8 s = .next (s.raiseError .badByteValue)) ∨
    (s.opa.toNat ≤ 0xFF ∧ exec .popcnt8 s = .next (s.complete (toWord (popcount8 (s.opa.setWidth 8))))) := by
  by_cases h : s.opa.toNat ≤ 0xFF
  · exact .inr ⟨h, by simp only [exec, execPopcnt8, byteOperand_of_le h]⟩
  · exact .inl ⟨by omega, by simp only [exec, execPopcnt8, byteOperand_of_gt (Nat.lt_of_not_le h)]⟩

theorem execPopcnt32_eq (s : State) : exec .popcnt32 s = .next (s.complete (toWord (popcount32 s.opa))) := rfl

theorem execWrbyte_cases (s : State) :
    (s.index ≠ .empty ∧ exec .wrbyte s = .next (s.raiseError .vectorImmutable)) ∨
    (s.index = .empty ∧ 0xFF < s.opb.toNat ∧ exec .wrbyte s = .next (s.raiseError .badByteValue)) ∨
    (s.index = .empty ∧ s.opb.toNat ≤ 0xFF ∧ s.params.maxBytes.toNat ≤ s.opa.toNat ∧
      exec .wrbyte s = .next (s.raiseError .byteAddress)) ∨
    (s.index = .empty ∧ s.opb.toNat ≤ 0xFF ∧ s.opa.toNat < s.params.maxBytes.toNat ∧
      exec .wrbyte s = .next ((s.writeByte s.opa.toNat (s.opb.setWidth 8)).complete 0#32)) := by
  by_cases hi : s.index = .empty
  · by_cases hb : s.opb.toNat ≤ 0xFF
    · by_cases ha : s.opa.toNat < s.params.maxBytes.toNat
      · exact .inr (.inr (.inr ⟨hi, hb, ha, by
          simp [exec, execWrbyte, hi, byteOperand_of_le hb, byteAddressOperand_of_lt ha]⟩))
      · exact .inr (.inr (.inl ⟨hi, hb, by omega, by
          simp [exec, execWrbyte, hi, byteOperand_of_le hb, byteAddressOperand_of_ge (Nat.le_of_not_lt ha)]⟩))
    · exact .inr (.inl ⟨hi, by omega, by
        simp [exec, execWrbyte, hi, byteOperand_of_gt (Nat.lt_of_not_le hb)]⟩)
  · exact .inl ⟨hi, by simp [exec, execWrbyte, hi]⟩

theorem execRdbyte_cases (s : State) :
    (s.params.maxBytes.toNat ≤ s.opa.toNat ∧ exec .rdbyte s = .next (s.raiseError .byteAddress)) ∨
    (s.opa.toNat < s.params.maxBytes.toNat ∧
      exec .rdbyte s = .next (s.complete ((s.readByte s.opa.toNat).setWidth 32))) := by
  by_cases ha : s.opa.toNat < s.params.maxBytes.toNat
  · exact .inr ⟨ha, by simp [exec, execRdbyte, byteAddressOperand_of_lt ha]⟩
  · exact .inl ⟨by omega, by simp [exec, execRdbyte, byteAddressOperand_of_ge (Nat.le_of_not_lt ha)]⟩

theorem execClear_eq (s : State) : exec .clear s = .next (s.zeroRam.discardIndex.complete 0#32) := rfl

theorem blockSizesValid_iff (lbs sbs : Word) :
    blockSizesValid lbs sbs = true ↔ 1 ≤ sbs.toNat ∧ 1 ≤ lbs.toNat ∧ lbs.toNat % sbs.toNat = 0 := by
  simp [blockSizesValid, and_assoc]

theorem tablesFit_iff (p : Params) (len lbs sbs : Word) :
    tablesFit p len lbs sbs = true ↔
      8 * len.toNat / lbs.toNat + 1 ≤ p.lbCap.toNat ∧ 8 * len.toNat / sbs.toNat + 1 ≤ p.sbCap.toNat := by
  simp [tablesFit]

theorem execCreate_cases (s : State) :
    (¬ (1 ≤ s.sbscfg.toNat ∧ 1 ≤ s.lbscfg.toNat ∧ s.lbscfg.toNat % s.sbscfg.toNat = 0) ∧
      exec .create s = .next (s.raiseError .badBlockConfig)) ∨
    ((1 ≤ s.sbscfg.toNat ∧ 1 ≤ s.lbscfg.toNat ∧ s.lbscfg.toNat % s.sbscfg.toNat = 0) ∧
      s.params.maxBytes.toNat < s.opa.toNat ∧ exec .create s = .next (s.raiseError .lengthCapacity)) ∨
    ((1 ≤ s.sbscfg.toNat ∧ 1 ≤ s.lbscfg.toNat ∧ s.lbscfg.toNat % s.sbscfg.toNat = 0) ∧
      s.opa.toNat ≤ s.params.maxBytes.toNat ∧
      ¬ (8 * s.opa.toNat / s.lbscfg.toNat + 1 ≤ s.params.lbCap.toNat ∧
        8 * s.opa.toNat / s.sbscfg.toNat + 1 ≤ s.params.sbCap.toNat) ∧
      exec .create s = .next (s.raiseError .tableCapacity)) ∨
    ((1 ≤ s.sbscfg.toNat ∧ 1 ≤ s.lbscfg.toNat ∧ s.lbscfg.toNat % s.sbscfg.toNat = 0) ∧
      s.opa.toNat ≤ s.params.maxBytes.toNat ∧
      (8 * s.opa.toNat / s.lbscfg.toNat + 1 ≤ s.params.lbCap.toNat ∧
        8 * s.opa.toNat / s.sbscfg.toNat + 1 ≤ s.params.sbCap.toNat) ∧
      exec .create s = .next ((s.newIndex s.opa s.lbscfg s.sbscfg).complete (toWord (8 * s.opa.toNat)))) := by
  rw [← blockSizesValid_iff, ← tablesFit_iff]
  by_cases hv : blockSizesValid s.lbscfg s.sbscfg = true
  · by_cases hl : s.params.maxBytes.toNat < s.opa.toNat
    · exact .inr (.inl ⟨hv, hl, by simp [exec, execCreate, hv, hl]⟩)
    · by_cases hf : tablesFit s.params s.opa s.lbscfg s.sbscfg = true
      · exact .inr (.inr (.inr ⟨hv, by omega, hf, by simp [exec, execCreate, hv, hl, hf]⟩))
      · exact .inr (.inr (.inl ⟨hv, by omega, hf, by simp [exec, execCreate, hv, hl, hf]⟩))
  · exact .inl ⟨hv, by simp [exec, execCreate, hv]⟩

theorem execBuild_cases (s : State) :
    (s.index = .empty ∧ exec .build s = .next (s.raiseError .notCreated)) ∨
    (s.index ≠ .empty ∧ exec .build s = .next (s.fillTables.complete (toWord (s.ones 0 s.nbits.toNat)))) := by
  by_cases hi : s.index = .empty
  · exact .inl ⟨hi, by simp [exec, execBuild, hi]⟩
  · exact .inr ⟨hi, by simp [exec, execBuild, hi, State.bitLen]⟩

theorem execRdlb_cases (s : State) :
    (s.index ≠ .built ∧ exec .rdlb s = .next (s.raiseError .notBuilt)) ∨
    (s.index = .built ∧ s.nbits.toNat / s.lbs.toNat < s.opa.toNat ∧
      exec .rdlb s = .next (s.raiseError .tableIndex)) ∨
    (s.index = .built ∧ s.opa.toNat ≤ s.nbits.toNat / s.lbs.toNat ∧
      exec .rdlb s = .next (s.complete (s.lbEntry s.opa.toNat))) := by
  by_cases hi : s.index = .built
  · by_cases hk : s.nbits.toNat / s.lbs.toNat < s.opa.toNat
    · exact .inr (.inl ⟨hi, hk, by simp [exec, execRdlb, hi, State.lastLb, State.bitLen, hk]⟩)
    · exact .inr (.inr ⟨hi, by omega, by simp [exec, execRdlb, hi, State.lastLb, State.bitLen, hk]⟩)
  · exact .inl ⟨hi, by simp [exec, execRdlb, hi]⟩

theorem execRdsb_cases (s : State) :
    (s.index ≠ .built ∧ exec .rdsb s = .next (s.raiseError .notBuilt)) ∨
    (s.index = .built ∧ s.nbits.toNat / s.sbs.toNat < s.opa.toNat ∧
      exec .rdsb s = .next (s.raiseError .tableIndex)) ∨
    (s.index = .built ∧ s.opa.toNat ≤ s.nbits.toNat / s.sbs.toNat ∧
      exec .rdsb s = .next (s.complete (s.sbEntry s.opa.toNat))) := by
  by_cases hi : s.index = .built
  · by_cases hk : s.nbits.toNat / s.sbs.toNat < s.opa.toNat
    · exact .inr (.inl ⟨hi, hk, by simp [exec, execRdsb, hi, State.lastSb, State.bitLen, hk]⟩)
    · exact .inr (.inr ⟨hi, by omega, by simp [exec, execRdsb, hi, State.lastSb, State.bitLen, hk]⟩)
  · exact .inl ⟨hi, by simp [exec, execRdsb, hi]⟩

theorem execRank_cases (s : State) :
    (s.index ≠ .built ∧ exec .rank s = .next (s.raiseError .notBuilt)) ∨
    (s.index = .built ∧ 1 < s.opb.toNat ∧ exec .rank s = .next (s.raiseError .badBit)) ∨
    (∃ b : Bool, s.index = .built ∧ s.opb.toNat = b.toNat ∧ s.nbits.toNat < s.opa.toNat ∧
      exec .rank s = .next (s.raiseError .rankIndex)) ∨
    (∃ b : Bool, s.index = .built ∧ s.opb.toNat = b.toNat ∧ s.opa.toNat ≤ s.nbits.toNat ∧
      exec .rank s = .next (s.complete (toWord (s.count b 0 s.opa.toNat)))) := by
  by_cases hi : s.index = .built
  · by_cases hb : 1 < s.opb.toNat
    · exact .inr (.inl ⟨hi, hb, by simp [exec, execRank, hi, bitOperand_of_gt hb]⟩)
    · obtain ⟨b, hb⟩ : ∃ b : Bool, s.opb.toNat = b.toNat := by
        rcases Nat.le_one_iff_eq_zero_or_eq_one.1 (Nat.le_of_not_lt hb) with h | h
        · exact ⟨false, h⟩
        · exact ⟨true, h⟩
      by_cases ha : s.nbits.toNat < s.opa.toNat
      · exact .inr (.inr (.inl ⟨b, hi, hb, ha, by
          simp [exec, execRank, hi, bitOperand_of_eq hb, State.bitLen, ha]⟩))
      · exact .inr (.inr (.inr ⟨b, hi, hb, by omega, by
          simp [exec, execRank, hi, bitOperand_of_eq hb, State.bitLen, ha, State.rank_eq_count]⟩))
  · exact .inl ⟨hi, by simp [exec, execRank, hi]⟩

theorem execSelect_cases (s : State) :
    (s.index ≠ .built ∧ exec .select s = .next (s.raiseError .notBuilt)) ∨
    (s.index = .built ∧ 1 < s.opb.toNat ∧ exec .select s = .next (s.raiseError .badBit)) ∨
    (∃ b : Bool, s.index = .built ∧ s.opb.toNat = b.toNat ∧
      (s.opa.toNat = 0 ∨ s.count b 0 s.nbits.toNat < s.opa.toNat) ∧
      exec .select s = .next (s.raiseError .selectOrdinal)) ∨
    (∃ b : Bool, s.index = .built ∧ s.opb.toNat = b.toNat ∧
      1 ≤ s.opa.toNat ∧ s.opa.toNat ≤ s.count b 0 s.nbits.toNat ∧
      exec .select s = .next (s.complete (toWord (s.selectPos b s.opa.toNat)))) := by
  by_cases hi : s.index = .built
  · by_cases hb : 1 < s.opb.toNat
    · exact .inr (.inl ⟨hi, hb, by simp [exec, execSelect, hi, bitOperand_of_gt hb]⟩)
    · obtain ⟨b, hb⟩ : ∃ b : Bool, s.opb.toNat = b.toNat := by
        rcases Nat.le_one_iff_eq_zero_or_eq_one.1 (Nat.le_of_not_lt hb) with h | h
        · exact ⟨false, h⟩
        · exact ⟨true, h⟩
      have h0 : s.opa = 0#32 ↔ s.opa.toNat = 0 := by simp [← BitVec.toNat_inj]
      by_cases ha : s.opa.toNat = 0 ∨ s.count b 0 s.nbits.toNat < s.opa.toNat
      · exact .inr (.inr (.inl ⟨b, hi, hb, ha, by
          simp [exec, execSelect, hi, bitOperand_of_eq hb, State.total_eq_count, h0, ha]⟩))
      · exact .inr (.inr (.inr ⟨b, hi, hb, by omega, by omega, by
          simp [exec, execSelect, hi, bitOperand_of_eq hb, State.total_eq_count, h0, ha]⟩))
  · exact .inl ⟨hi, by simp [exec, execSelect, hi]⟩

/-- What a command changes before it completes: nothing, but for WRBYTE, CLEAR, CREATE and BUILD. -/
def commandChange : Instr → State → State
  | .popcnt8, s => s
  | .popcnt32, s => s
  | .wrbyte, s => s.writeByte s.opa.toNat (s.opb.setWidth 8)
  | .rdbyte, s => s
  | .clear, s => s.zeroRam.discardIndex
  | .create, s => s.newIndex s.opa s.lbscfg s.sbscfg
  | .build, s => s.fillTables
  | .rank, s => s
  | .select, s => s
  | .rdlb, s => s
  | .rdsb, s => s

/-- Every command ends in one completion (60_exceptions.md R200): an error that changes nothing else (R207), or a success
over the one change the command makes (R206). -/
theorem exec_cases (i : Instr) (s : State) :
    (∃ c, c ∈ Spec.causesOf i ∧ exec i s = .next (s.raiseError c)) ∨
    (∃ v, exec i s = .next ((commandChange i s).complete v)) := by
  cases i with
  | popcnt8 => rcases execPopcnt8_cases s with ⟨-, h⟩ | ⟨-, h⟩ <;>
      first | exact .inr ⟨_, h⟩ | exact .inl ⟨_, by simp [Spec.causesOf], h⟩
  | popcnt32 => exact .inr ⟨_, execPopcnt32_eq s⟩
  | wrbyte =>
    rcases execWrbyte_cases s with ⟨-, h⟩ | ⟨-, -, h⟩ | ⟨-, -, -, h⟩ | ⟨-, -, -, h⟩ <;>
      first | exact .inr ⟨_, h⟩ | exact .inl ⟨_, by simp [Spec.causesOf], h⟩
  | rdbyte => rcases execRdbyte_cases s with ⟨-, h⟩ | ⟨-, h⟩ <;>
      first | exact .inr ⟨_, h⟩ | exact .inl ⟨_, by simp [Spec.causesOf], h⟩
  | clear => exact .inr ⟨_, execClear_eq s⟩
  | create =>
    rcases execCreate_cases s with ⟨-, h⟩ | ⟨-, -, h⟩ | ⟨-, -, -, h⟩ | ⟨-, -, -, h⟩ <;>
      first | exact .inr ⟨_, h⟩ | exact .inl ⟨_, by simp [Spec.causesOf], h⟩
  | build => rcases execBuild_cases s with ⟨-, h⟩ | ⟨-, h⟩ <;>
      first | exact .inr ⟨_, h⟩ | exact .inl ⟨_, by simp [Spec.causesOf], h⟩
  | rank =>
    rcases execRank_cases s with ⟨-, h⟩ | ⟨-, -, h⟩ | ⟨_, -, -, -, h⟩ | ⟨_, -, -, -, h⟩ <;>
      first | exact .inr ⟨_, h⟩ | exact .inl ⟨_, by simp [Spec.causesOf], h⟩
  | select =>
    rcases execSelect_cases s with ⟨-, h⟩ | ⟨-, -, h⟩ | ⟨_, -, -, -, h⟩ | ⟨_, -, -, -, -, h⟩ <;>
      first | exact .inr ⟨_, h⟩ | exact .inl ⟨_, by simp [Spec.causesOf], h⟩
  | rdlb => rcases execRdlb_cases s with ⟨-, h⟩ | ⟨-, -, h⟩ | ⟨-, -, h⟩ <;>
      first | exact .inr ⟨_, h⟩ | exact .inl ⟨_, by simp [Spec.causesOf], h⟩
  | rdsb => rcases execRdsb_cases s with ⟨-, h⟩ | ⟨-, -, h⟩ | ⟨-, -, h⟩ <;>
      first | exact .inr ⟨_, h⟩ | exact .inl ⟨_, by simp [Spec.causesOf], h⟩

end Sys2Proof.Machine
end

