-- ==== Sys2Proof/Laws/Decode.lean ====
section
/-! SUPPORT. The laws of decoding: what the opcode map names, and how a word is split into its two fields. -/

namespace Sys2Proof

@[simp] theorem opcodeField_toNat (w : Word) : (opcodeField w).toNat = w.toNat % 256 := by
  simp [opcodeField, BitVec.extractLsb'_toNat]

@[simp] theorem reservedField_toNat (w : Word) : (reservedField w).toNat = w.toNat / 256 := by
  have := w.isLt
  simp only [reservedField, BitVec.extractLsb'_toNat, Nat.shiftRight_eq_div_pow]
  omega

/-- The opcode map names a command for 0x01 to 0x0B alone (30_encoding.md R83, R86). -/
theorem lookupOpcode_eq_none_iff (op : BitVec 8) :
    lookupOpcode op = none ↔ op.toNat = 0 ∨ 0x0C ≤ op.toNat := by
  revert op; decide

/-- The opcode map names the command whose opcode it is (30_encoding.md R83). -/
theorem lookupOpcode_eq_some_iff (op : BitVec 8) (i : Instr) : lookupOpcode op = some i ↔ op = opcodeOf i := by
  revert op i
  have h : ∀ op : BitVec 8, ∀ i ∈ opcodeMap.map Prod.snd, lookupOpcode op = some i ↔ op = opcodeOf i := by decide
  exact fun op i => h op i (by cases i <;> decide)

/-- A command's word has its opcode in the low byte and nothing above it (30_encoding.md R83). -/
theorem encode_toNat (i : Instr) : (encode i).toNat = (opcodeOf i).toNat := by
  cases i <;> rfl

theorem opcodeOf_range (i : Instr) : 1 ≤ (opcodeOf i).toNat ∧ (opcodeOf i).toNat ≤ 0x0B := by
  cases i <;> decide

/-- What decoding can answer, and when (30_encoding.md R81). -/
theorem decode_cases (w : Word) :
    (decode w = .error .unknownOpcode ∧ (w.toNat % 256 = 0 ∨ 0x0C ≤ w.toNat % 256)) ∨
    (decode w = .error .reservedBits ∧ 1 ≤ w.toNat % 256 ∧ w.toNat % 256 ≤ 0x0B ∧ w.toNat / 256 ≠ 0) ∨
    (∃ i, decode w = .ok i ∧ w = encode i) := by
  cases h : lookupOpcode (opcodeField w) with
  | none =>
    refine .inl ⟨by simp [decode, h], ?_⟩
    simpa using (lookupOpcode_eq_none_iff _).1 h
  | some i =>
    have hop := (lookupOpcode_eq_some_iff _ _).1 h
    have hmod : w.toNat % 256 = (opcodeOf i).toNat := by rw [← hop, opcodeField_toNat]
    have hr := opcodeOf_range i
    by_cases hz : reservedField w = 0#24
    · refine .inr (.inr ⟨i, by simp [decode, h, hz], ?_⟩)
      have hdiv : w.toNat / 256 = 0 := by rw [← reservedField_toNat, hz]; rfl
      refine BitVec.eq_of_toNat_eq ?_
      rw [encode_toNat]
      omega
    · refine .inr (.inl ⟨by simp [decode, h, hz], by omega, by omega, fun h0 => hz ?_⟩)
      exact BitVec.eq_of_toNat_eq (by rw [reservedField_toNat, h0]; rfl)

end Sys2Proof
end

