-- ==== Sys2Proof/Laws/PerInstr.lean ====
section
/-! SUPPORT. Statements for all commands, one lemma a constructor. -/

/-- A command is well formed, and its word decodes to it, has no reserved bit set and is a 32-bit table row's word. -/
def Sys2Proof.Laws.Encoding.Statement (i : Sys2Proof.Instr) : Prop :=
  i.wf = true ∧ Sys2Proof.decode (Sys2Proof.encode i) = .ok i ∧
    Sys2Proof.reservedField (Sys2Proof.encode i) = 0#24 ∧
    Sys2Proof.decodeTableWord 32 (Sys2Proof.encode i).toNat = some i

namespace Sys2Proof.Laws.Encoding

theorem popcnt8 : Statement .popcnt8 := ⟨rfl, rfl, rfl, rfl⟩
theorem popcnt32 : Statement .popcnt32 := ⟨rfl, rfl, rfl, rfl⟩
theorem wrbyte : Statement .wrbyte := ⟨rfl, rfl, rfl, rfl⟩
theorem rdbyte : Statement .rdbyte := ⟨rfl, rfl, rfl, rfl⟩
theorem clear : Statement .clear := ⟨rfl, rfl, rfl, rfl⟩
theorem create : Statement .create := ⟨rfl, rfl, rfl, rfl⟩
theorem build : Statement .build := ⟨rfl, rfl, rfl, rfl⟩
theorem rank : Statement .rank := ⟨rfl, rfl, rfl, rfl⟩
theorem select : Statement .select := ⟨rfl, rfl, rfl, rfl⟩
theorem rdlb : Statement .rdlb := ⟨rfl, rfl, rfl, rfl⟩
theorem rdsb : Statement .rdsb := ⟨rfl, rfl, rfl, rfl⟩

end Sys2Proof.Laws.Encoding
end

