-- ==== Sys2Proof/Laws/Step.lean ====
section
/-! SUPPORT. Everything a turn can do, said once for each agent, and what a step can answer. -/

namespace Sys2Proof.Machine

/-! ### The register window -/

@[simp] theorem regAtOffset_offset (r : HostReg) : regAtOffset r.offset = some r := by cases r <;> rfl

/-- The register at an offset is the one whose offset it is (10_state.md R22). -/
theorem offset_of_regAtOffset {off : Nat} {r : HostReg} (h : regAtOffset off = some r) : off = r.offset := by
  have := List.find?_some h
  exact (beq_iff_eq.1 this).symm

/-- Reserved offsets hold no register (10_state.md R35). -/
theorem regAtOffset_of_ge {off : Nat} (h : 0x40 ≤ off) : regAtOffset off = none := by
  refine List.find?_eq_none.2 fun r _ hr => ?_
  have := beq_iff_eq.1 hr
  cases r <;> simp only [HostReg.offset] at this <;> omega

/-- Everything a host write to a register can do (20_memory.md R66). -/
theorem State.writeReg_cases (s : State) (r : HostReg) (v : Word) :
    (s.busy = true ∧ r ∈ [.cmd, .opa, .opb, .lbscfg, .sbscfg] ∧ s.writeReg r v = s.dropWrite) ∨
    (s.busy = false ∧ r = .cmd ∧ s.writeReg r v = s.accept v) ∨
    (s.busy = false ∧ ((r = .opa ∧ s.writeReg r v = { s with opa := v }) ∨
      (r = .opb ∧ s.writeReg r v = { s with opb := v }) ∨
      (r = .lbscfg ∧ s.writeReg r v = { s with lbscfg := v }) ∨
      (r = .sbscfg ∧ s.writeReg r v = { s with sbscfg := v }))) ∨
    (r = .status ∧ s.writeReg r v = s.statusWrite v) ∨
    (r = .ctrl ∧ s.writeReg r v = s.ctrlWrite v) ∨
    (r ∉ [.cmd, .opa, .opb, .lbscfg, .sbscfg, .status, .ctrl] ∧ s.writeReg r v = s) := by
  cases hb : s.busy <;> cases r <;> simp [State.writeReg, hb]

/-- Everything a host write at an offset can do: what it does to a register, or nothing. -/
theorem State.writeOffset_cases (s : State) (off : Nat) (v : Word) :
    (∃ r : HostReg, off = r.offset ∧ s.writeOffset off v = s.writeReg r v) ∨
    (regAtOffset off = none ∧ s.writeOffset off v = s) := by
  cases h : regAtOffset off with
  | none => exact .inr ⟨rfl, by simp [State.writeOffset, h]⟩
  | some r => exact .inl ⟨r, offset_of_regAtOffset h, by simp [State.writeOffset, h]⟩

@[simp] theorem State.writeOffset_offset (s : State) (r : HostReg) (v : Word) :
    s.writeOffset r.offset v = s.writeReg r v := by simp [State.writeOffset]

@[simp] theorem State.readOffset_offset (s : State) (r : HostReg) : s.readOffset r.offset = s.readReg r := by
  simp [State.readOffset]

/-- An access touches the window exactly when one of its bytes, its first at least, lies there (log entry 8). -/
theorem HostAccess.inWindow_iff (p : Params) (a : HostAccess) :
    a.InWindow p ↔
      ∃ x, a.addr ≤ x ∧ x < a.addr + max 1 a.width ∧ p.baseAddr ≤ x ∧ x < p.baseAddr + 0x100 := by
  refine ⟨fun h => ⟨max a.addr p.baseAddr, ?_⟩, ?_⟩
  · simp only [HostAccess.InWindow] at h
    omega
  · rintro ⟨x, h⟩
    simp only [HostAccess.InWindow]
    omega

/-- The accesses the block defines, by their offset (20_memory.md R64). -/
theorem HostAccess.wf_iff (p : Params) (a : HostAccess) :
    a.WF p ↔ ∃ k, a.width = 4 ∧ a.addr = p.baseAddr + 4 * k := by
  refine ⟨fun h => ⟨(a.addr - p.baseAddr) / 4, ?_⟩, ?_⟩
  · simp only [HostAccess.WF] at h
    omega
  · rintro ⟨k, h⟩
    simp only [HostAccess.WF]
    omega

/-- Everything a host access can do (20_memory.md R64, R66, 70_reset_and_hazards.md R240). -/
theorem State.hostAccess_cases (s : State) (a : HostAccess) :
    (¬ a.InWindow s.params ∧ s.hostAccess a = .next s) ∨
    (a.InWindow s.params ∧ s.inReset = true ∧ s.hostAccess a = .refused .hostAccessDuringReset) ∨
    (a.InWindow s.params ∧ s.inReset = false ∧ ¬ a.WF s.params ∧ s.hostAccess a = .refused .undefinedHostAccess) ∨
    (a.InWindow s.params ∧ s.inReset = false ∧ a.WF s.params ∧ a.action = .read ∧
      s.hostAccess a = .next (s.deliver (s.readOffset (a.addr - s.params.baseAddr)))) ∨
    (∃ v, a.InWindow s.params ∧ s.inReset = false ∧ a.WF s.params ∧ a.action = .write v ∧
      s.hostAccess a = .next (s.writeOffset (a.addr - s.params.baseAddr) v)) := by
  by_cases hw : a.InWindow s.params
  · cases hr : s.inReset with
    | true => exact .inr (.inl ⟨hw, rfl, by rw [State.hostAccess, if_neg (not_not.2 hw), if_pos hr]⟩)
    | false =>
      have hr' : ¬ s.inReset = true := by simp [hr]
      by_cases hf : a.WF s.params
      · cases ha : a.action with
        | read =>
          refine .inr (.inr (.inr (.inl ⟨hw, rfl, hf, rfl, ?_⟩)))
          rw [State.hostAccess, if_neg (not_not.2 hw), if_neg hr', if_neg (not_not.2 hf), ha]
        | write v =>
          refine .inr (.inr (.inr (.inr ⟨v, hw, rfl, hf, rfl, ?_⟩)))
          rw [State.hostAccess, if_neg (not_not.2 hw), if_neg hr', if_neg (not_not.2 hf), ha]
      · refine .inr (.inr (.inl ⟨hw, rfl, hf, ?_⟩))
        rw [State.hostAccess, if_neg (not_not.2 hw), if_neg hr', if_pos hf]
  · exact .inl ⟨hw, by rw [State.hostAccess, if_pos hw]⟩

/-- A whole-register access at an aligned offset of the window is the one the block defines. -/
theorem State.hostAccess_at (s : State) {off : Nat} (hoff : off < 0x100) (hal : off % 4 = 0) (hr : s.inReset = false)
    (action : HostAction) :
    s.hostAccess { addr := s.params.baseAddr + off, width := 4, action := action } = .next
      (match action with
      | .read => s.deliver (s.readOffset off)
      | .write v => s.writeOffset off v) := by
  have hsub : s.params.baseAddr + off - s.params.baseAddr = off := by omega
  have hlt : s.params.baseAddr < s.params.baseAddr + off + 4 := by omega
  cases action <;>
    simp [State.hostAccess, HostAccess.InWindow, HostAccess.WF, hr, hsub, hal, hoff, hlt]

/-! ### The engine -/

/-- Everything the engine can do in its turn (00_scope.md R8, 30_encoding.md R81). -/
theorem State.engineTurn_cases (s : State) :
    (s.busy = false ∧ s.engineTurn = .next s) ∨
    (s.busy = true ∧ ∃ e, decode s.cmd = .error e ∧ s.engineTurn = .next (s.raiseError (causeOfDecodeError e))) ∨
    (s.busy = true ∧ ∃ i, decode s.cmd = .ok i ∧ s.engineTurn = exec i s) := by
  cases hb : s.busy with
  | false => exact .inl ⟨rfl, by simp [State.engineTurn, hb]⟩
  | true =>
    cases hd : decode s.cmd with
    | error e => exact .inr (.inl ⟨rfl, e, rfl, by simp [State.engineTurn, hb, State.performCommand, hd]⟩)
    | ok i => exact .inr (.inr ⟨rfl, i, rfl, by simp [State.engineTurn, hb, State.performCommand, hd]⟩)

/-- The engine's turn in terms of completions: idle, an error that changes nothing else, or a success over the change of
one command. -/
theorem State.engineTurn_completes (s : State) :
    (s.busy = false ∧ s.engineTurn = .next s) ∨
    (s.busy = true ∧ ∃ c, s.engineTurn = .next (s.raiseError c)) ∨
    (s.busy = true ∧ ∃ i v, s.engineTurn = exec i s ∧ s.engineTurn = .next ((commandChange i s).complete v)) := by
  rcases s.engineTurn_cases with h | ⟨hb, e, -, h⟩ | ⟨hb, i, -, h⟩
  · exact .inl h
  · exact .inr (.inl ⟨hb, _, h⟩)
  · rcases exec_cases i s with ⟨c, -, hc⟩ | ⟨v, hv⟩
    · exact .inr (.inl ⟨hb, c, h.trans hc⟩)
    · exact .inr (.inr ⟨hb, i, v, h, h.trans hv⟩)

/-! ### A step -/

/-- A step is the next turn, or the engine's where the schedule is used up. -/
theorem step_nil {s : State} (h : s.schedule = []) : step s = s.engineTurn := by simp [step, h]

theorem step_cons {s : State} {t : Turn} {rest : List Turn} (h : s.schedule = t :: rest) :
    step s = (s.afterTurn rest).runTurn t := by simp [step, h]

theorem State.afterTurn_self {s : State} (h : s.schedule = []) : s.afterTurn [] = s := by
  cases s; simp_all [State.afterTurn]

/-- What a step that answers a next state was: the engine's, on the state without its turn; a host access; or reset. -/
theorem step_next_cases {s t : State} (h : step s = .next t) :
    (∃ rest, (s.schedule = [] ∧ rest = [] ∨ s.schedule = .engine :: rest) ∧
      (s.afterTurn rest).engineTurn = .next t) ∨
    (∃ a rest, s.schedule = .host a :: rest ∧ (s.afterTurn rest).hostAccess a = .next t) ∨
    (∃ rest, s.schedule = .resetAssert :: rest ∧ t = (s.afterTurn rest).assertReset) ∨
    (∃ rest, s.schedule = .resetDone :: rest ∧ t = (s.afterTurn rest).finishReset) := by
  cases hs : s.schedule with
  | nil => exact .inl ⟨[], .inl ⟨rfl, rfl⟩, by rw [State.afterTurn_self hs, ← step_nil hs, h]⟩
  | cons x rest =>
    rw [step_cons hs] at h
    cases x with
    | host a => exact .inr (.inl ⟨a, rest, rfl, h⟩)
    | engine => exact .inl ⟨rest, .inr rfl, h⟩
    | resetAssert => exact .inr (.inr (.inl ⟨rest, rfl, by simpa [State.runTurn] using h.symm⟩))
    | resetDone => exact .inr (.inr (.inr ⟨rest, rfl, by simpa [State.runTurn] using h.symm⟩))

end Sys2Proof.Machine
end

