-- ==== Sys2Proof/Tests/Slice0.lean ====
section
/-! SUPPORT. The model's own tests: ill-formed inputs refused, command words decoded, one-step vectors of
spec/95_test_vectors.md, and for each obligation that has hypotheses a concrete state that meets them. -/

namespace Sys2Proof.Tests

open Sys2Proof.Machine

/-! ### Small states -/

/-- The block with operands `a` and `b`. -/
def operands (a b : Word) (s : State) : State := { s with opa := a, opb := b }

/-- The block with block sizes `l` and `m` in LBSCFG and SBSCFG. -/
def sizes (l m : Word) (s : State) : State := { s with lbscfg := l, sbscfg := m }

/-- V-A in RAM, created with the default sizes (95_test_vectors.md, Conventions). -/
def createdA : State :=
  { State.reset with
    ram := [(0, 0xB2#8)], index := .created, lenbytes := 1#32, nbits := 8#32, lbs := 256#32, sbs := 32#32 }

/-- V-A built with the default sizes (V-CB-21). -/
def builtA : State := { createdA with index := .built, lb := [0#32], sb := [0#32] }

/-- V-B created at 16 / 8. -/
def createdB : State :=
  { State.reset with
    ram := [(0, 0xFF#8), (1, 0x0F#8), (2, 0xF0#8), (3, 0x01#8), (4, 0x80#8)], index := .created
    lenbytes := 5#32, nbits := 40#32, lbs := 16#32, sbs := 8#32 }

/-- V-B built at 16 / 8 (V-CB-24). -/
def builtB : State :=
  { createdB with index := .built, lb := [0#32, 12#32, 17#32], sb := [0#32, 8#32, 0#32, 4#32, 0#32, 1#32] }

/-- The index over 0 bits, built (V-EX3). -/
def builtEmpty : State :=
  { State.reset with index := .built, lbs := 256#32, sbs := 32#32, lb := [0#32], sb := [0#32] }

/-- The word `w` accepted, the schedule used up. -/
def accepted (w : Word) (s : State) : State := s.accept w

/-- The word `w` accepted, the engine's turn next. -/
def engineNext (w : Word) (s : State) : State := s.acceptedNext w

/-- A host access at offset `off` is the next turn. -/
def hostNext (off : Nat) (action : HostAction) (s : State) : State :=
  { s with schedule := [Spec.hostAt s off action] }

/-- A turn is next. -/
def turnNext (t : Turn) (s : State) : State := { s with schedule := [t] }

/-- The state an outcome answers. -/
def stateOf : Host.Outcome State Fault Refusal → Option State
  | .next t => some t
  | .fault _ => none
  | .refused _ => none

/-- RESULT and STATUS after a command on a state. -/
def runs (i : Instr) (s : State) : Option (Word × Word) :=
  (stateOf (exec i s)).map fun t => (t.result, t.statusWord)

/-! ### Ill-formed inputs are refused -/

theorem test_every_command_is_well_formed :
    ∀ i ∈ [Instr.popcnt8, .popcnt32, .wrbyte, .rdbyte, .clear, .create, .build, .rank, .select, .rdlb, .rdsb],
      i.wf = true := by decide

theorem test_example_params_are_well_formed : Config.exampleParams.WF := by decide

theorem test_params_no_bytes_refused : ¬ { Config.exampleParams with maxBytes := 0#32 }.WF := by decide

theorem test_params_too_many_bytes_refused :
    ¬ Params.WF { baseAddr := 0, maxBytes := 0x20000000#32, lbCap := 0xFFFFFFFF#32, sbCap := 0xFFFFFFFF#32 } := by
  decide

theorem test_params_large_table_too_small_refused : ¬ { Config.exampleParams with lbCap := 128#32 }.WF := by decide

theorem test_params_small_table_too_small_refused : ¬ { Config.exampleParams with sbCap := 1024#32 }.WF := by decide

theorem test_params_unaligned_base_refused : ¬ { Config.exampleParams with baseAddr := 0x10 }.WF := by decide

theorem test_byte_access_is_ill_formed :
    ¬ HostAccess.WF Config.exampleParams { addr := 0x04, width := 1, action := .read } := by decide

theorem test_halfword_access_is_ill_formed :
    ¬ HostAccess.WF Config.exampleParams { addr := 0x04, width := 2, action := .write 0#32 } := by decide

theorem test_unaligned_access_is_ill_formed :
    ¬ HostAccess.WF Config.exampleParams { addr := 0x06, width := 4, action := .read } := by decide

theorem test_access_below_window :
    ¬ HostAccess.InWindow { Config.exampleParams with baseAddr := 0x1000 }
      { addr := 0xFFC, width := 4, action := .read } := by decide

theorem test_access_above_window :
    ¬ HostAccess.InWindow Config.exampleParams { addr := 0x100, width := 4, action := .read } := by decide

/-! ### Command words, written out from 30_encoding.md R83 -/

theorem test_decode_popcnt8 : decode 0b00000000000000000000000000000001#32 = .ok .popcnt8 := by rfl
theorem test_decode_popcnt32 : decode 0b00000000000000000000000000000010#32 = .ok .popcnt32 := by rfl
theorem test_decode_wrbyte : decode 0b00000000000000000000000000000011#32 = .ok .wrbyte := by rfl
theorem test_decode_rdbyte : decode 0b00000000000000000000000000000100#32 = .ok .rdbyte := by rfl
theorem test_decode_clear : decode 0b00000000000000000000000000000101#32 = .ok .clear := by rfl
theorem test_decode_create : decode 0b00000000000000000000000000000110#32 = .ok .create := by rfl
theorem test_decode_build : decode 0b00000000000000000000000000000111#32 = .ok .build := by rfl
theorem test_decode_rank : decode 0b00000000000000000000000000001000#32 = .ok .rank := by rfl
theorem test_decode_select : decode 0b00000000000000000000000000001001#32 = .ok .select := by rfl
theorem test_decode_rdlb : decode 0b00000000000000000000000000001010#32 = .ok .rdlb := by rfl
theorem test_decode_rdsb : decode 0b00000000000000000000000000001011#32 = .ok .rdsb := by rfl

/-- 30_encoding.md R81, R82, R86: an unassigned opcode is reported before nonzero reserved bits. -/
theorem test_illegal_words :
    decode 0x00000000#32 = .error .unknownOpcode ∧ decode 0x0000000C#32 = .error .unknownOpcode ∧
    decode 0x000000FF#32 = .error .unknownOpcode ∧ decode 0x0000010C#32 = .error .unknownOpcode ∧
    decode 0x00000108#32 = .error .reservedBits ∧ decode 0x80000001#32 = .error .reservedBits :=
  ⟨rfl, rfl, rfl, rfl, rfl, rfl⟩

theorem test_table_word_select : decodeTableWord 32 0x00000009 = some .select := by rfl

theorem test_fetch_word_runs_first :
    (stateOf (step (State.reset.withFetchWord 32 0x00000004))).map (fun t => (t.cmd, t.statusWord)) =
      some (0x00000004#32, 0x00000002#32) := by decide

/-! ### One step of each command (95_test_vectors.md) -/

/-- V-POP-5. -/
theorem test_popcnt8_b2 : runs .popcnt8 (operands 0xB2#32 0#32 .reset) = some (4#32, 0x00000002#32) := by decide

/-- V-POP-9. -/
theorem test_popcnt8_not_truncated :
    runs .popcnt8 (operands 0x100#32 0#32 .reset) = some (0#32, 0x00005106#32) := by decide

/-- V-POP-24. -/
theorem test_popcnt32 : runs .popcnt32 (operands 0x12345678#32 0#32 .reset) = some (13#32, 0x00000002#32) := by decide

/-- The stages of the reduction tree on 0xDEADBEEF (95_test_vectors.md section 1). -/
theorem test_popcount_tree :
    popcountStage 0xDEADBEEF#32 2 = [4, 3, 3, 3, 3, 2, 3, 3] ∧ popcountStage 0xDEADBEEF#32 3 = [7, 6, 5, 6] ∧
    popcountStage 0xDEADBEEF#32 4 = [13, 11] ∧ popcountStage 0xDEADBEEF#32 5 = [24] := by decide

/-- V-MEM-2. -/
theorem test_wrbyte_last_byte :
    (stateOf (exec .wrbyte (operands 4095#32 0x5A#32 .reset))).map (fun t => (t.ram, t.statusWord)) =
      some ([(4095, 0x5A#8)], 0x00000002#32) := by decide

/-- V-MEM-7, V-MEM-5, V-MEM-3: the checks in order. -/
theorem test_wrbyte_checks_in_order :
    runs .wrbyte (operands 4096#32 0x100#32 builtA) = some (0#32, 0x0000C326#32) ∧
    runs .wrbyte (operands 4096#32 0x100#32 .reset) = some (0#32, 0x00005106#32) ∧
    runs .wrbyte (operands 4096#32 0x5A#32 .reset) = some (0#32, 0x00008206#32) := by decide

/-- V-MEM-8. -/
theorem test_rdbyte : runs .rdbyte (operands 0#32 0#32 builtA) = some (178#32, 0x00000022#32) := by decide

/-- V-MEM-10. -/
theorem test_rdbyte_past_end : runs .rdbyte (operands 4096#32 0#32 .reset) = some (0#32, 0x00008206#32) := by decide

/-- V-MEM-11. -/
theorem test_clear :
    (stateOf (exec .clear builtA)).map (fun t => (t.ram, t.lb, t.sb, t.statusWord, t.lbscfg)) =
      some ([], [], [], 0x00000002#32, 256#32) ∧
    (stateOf (exec .clear builtA)).map (fun t => (t.lenbytes, t.nbits, t.lbs, t.sbs)) =
      some (0#32, 0#32, 0#32, 0#32) := by decide

/-- V-CB-13. -/
theorem test_create_fits_exactly :
    (stateOf (exec .create (sizes 256#32 8#32 (operands 1024#32 0#32 .reset)))).map
      (fun t => (t.result, t.statusWord, t.lenbytes, t.nbits, t.lbs, t.sbs)) =
      some (8192#32, 0x00000012#32, 1024#32, 8192#32, 256#32, 8#32) := by decide

/-- V-CB-9, V-CB-10, V-CB-14 and V-CB-16: the checks in order, and a failed CREATE keeps the index. -/
theorem test_create_checks_in_order :
    runs .create (sizes 48#32 32#32 (operands 5000#32 0#32 .reset)) = some (0#32, 0x00002106#32) ∧
    runs .create (operands 5000#32 0#32 .reset) = some (0#32, 0x00003106#32) ∧
    runs .create (sizes 256#32 8#32 (operands 1025#32 0#32 .reset)) = some (0#32, 0x00004106#32) ∧
    runs .create (sizes 48#32 32#32 (operands 1#32 0#32 builtA)) = some (0#32, 0x00002126#32) := by decide

/-- V-CB-24. -/
theorem test_build :
    (stateOf (exec .build createdB)).map (fun t => (t.result, t.lb, t.sb, t.statusWord)) =
      some (18#32, [0#32, 12#32, 17#32], [0#32, 8#32, 0#32, 4#32, 0#32, 1#32], 0x00000022#32) := by decide

/-- V-CB-20. -/
theorem test_build_not_created : runs .build .reset = some (0#32, 0x0000A306#32) := by decide

/-- V-EX1 and V-RK-1. -/
theorem test_rank :
    runs .rank (operands 4#32 1#32 builtA) = some (3#32, 0x00000022#32) ∧
    runs .rank (operands 5#32 0#32 builtA) = some (2#32, 0x00000022#32) := by decide

/-- V-RK-12, V-RK-11 and V-RK-18. -/
theorem test_rank_checks_in_order :
    runs .rank (operands 9#32 2#32 builtA) = some (0#32, 0x00001126#32) ∧
    runs .rank (operands 9#32 1#32 builtA) = some (0#32, 0x00006226#32) ∧
    runs .rank (operands 9#32 2#32 createdA) = some (0#32, 0x0000B316#32) := by decide

/-- 95_test_vectors.md V-EX2: select(n) = 0, 2, 3, 6 over V-A. -/
theorem test_select :
    runs .select (operands 3#32 1#32 builtA) = some (3#32, 0x00000022#32) ∧
    runs .select (operands 4#32 1#32 builtA) = some (6#32, 0x00000022#32) := by decide

/-- 43_rank_select.md R173: ordinal 0, and one above the total. -/
theorem test_select_ordinal :
    runs .select (operands 0#32 1#32 builtA) = some (0#32, 0x00007226#32) ∧
    runs .select (operands 5#32 1#32 builtA) = some (0#32, 0x00007226#32) ∧
    runs .select (operands 1#32 0#32 builtEmpty) = some (0#32, 0x00007226#32) := by decide

/-- V-CB-35 and V-CB-36. -/
theorem test_rdlb :
    runs .rdlb (operands 2#32 0#32 builtB) = some (17#32, 0x00000022#32) ∧
    runs .rdlb (operands 3#32 0#32 builtB) = some (0#32, 0x00009226#32) := by decide

/-- V-CB-32. -/
theorem test_rdlb_not_built : runs .rdlb (operands 0#32 0#32 createdA) = some (0#32, 0x0000B316#32) := by decide

/-- V-CB-38 and V-CB-40. -/
theorem test_rdsb :
    runs .rdsb (operands 3#32 0#32 builtB) = some (4#32, 0x00000022#32) ∧
    runs .rdsb (operands 6#32 0#32 builtB) = some (0#32, 0x00009226#32) := by decide

/-! ### The register window -/

/-- Program P4, steps 22 and 23: acceptance, then a dropped write. -/
theorem test_accept_and_drop :
    (stateOf (step (hostNext 0x00 (.write 8#32) builtA))).map (fun t => (t.cmd, t.statusWord)) =
      some (8#32, 0x00000021#32) ∧
    (stateOf (step (hostNext 0x04 (.write 0#32) (operands 40#32 0#32 (accepted 8#32 builtA))))).map
      (fun t => (t.opa, t.statusWord)) = some (40#32, 0x00000029#32) := by decide

/-- Program P4, step 26: a write of 0xA to STATUS clears DONE and OVERRUN. -/
theorem test_status_write_clears :
    (stateOf (step (hostNext 0x18 (.write 0xA#32) { builtA with done := true, overrun := true }))).map
      (fun t => t.statusWord) = some 0x00000020#32 := by decide

/-- 10_state.md R33, R35: ID, and a reserved offset. -/
theorem test_host_reads :
    (stateOf (step (hostNext 0x30 .read .reset))).map (fun t => t.readLog) = some [0x52534931#32] ∧
    (stateOf (step (hostNext 0xFC .read builtA))).map (fun t => t.readLog) = some [0#32] := by decide

/-- 20_memory.md R64, 70_reset_and_hazards.md R240: what is refused. -/
theorem test_undefined_access_is_refused :
    step (turnNext (.host { addr := 0x05, width := 1, action := .read }) .reset) = .refused .undefinedHostAccess ∧
    step (turnNext (.host { addr := 0x04, width := 4, action := .read }) { State.reset with inReset := true }) =
      .refused .hostAccessDuringReset := ⟨rfl, rfl⟩

/-- A block at host address 0x1000. -/
def at1000 : State := { State.reset with params := { Config.exampleParams with baseAddr := 0x1000 } }

/-- 20_memory.md R64, log entry 8: an access that starts below the window is refused from the first byte it has inside,
and changes nothing as long as it has none. -/
theorem test_straddling_access :
    step (turnNext (.host { addr := 0xFFE, width := 4, action := .write 1#32 }) at1000) = .refused .undefinedHostAccess ∧
    step (turnNext (.host { addr := 0xFFD, width := 4, action := .write 1#32 }) at1000) = .refused .undefinedHostAccess ∧
    step (turnNext (.host { addr := 0xFFC, width := 4, action := .write 1#32 }) at1000) = .next at1000 :=
  ⟨rfl, rfl, rfl⟩

/-- 70_reset_and_hazards.md R240: reset in the middle of a command. -/
theorem test_reset_aborts :
    stateOf (step (turnNext .resetAssert (accepted 8#32 builtA))) = some { State.reset with inReset := true } ∧
    stateOf (step (turnNext .resetDone { State.reset with inReset := true })) = some State.reset := by decide

/-- 95_test_vectors.md section 4: the table identity at V-B, i = 20. -/
theorem test_table_rank : builtB.tableRank true 20 = 16 := by decide

/-- 30_encoding.md R89: `load` writes rising addresses, and a command with its operands takes this many turns. -/
theorem test_load_expands :
    (expandProgram Config.exampleParams [.host 0 (.load 0#32 [0xFF#32, 0x0F#32]), .host 3 (.rank 4#32 1#32)]).length = 24 ∧
    (HostOp.expand Config.exampleParams 0 (.load 0#32 [0xFF#32, 0x0F#32]))[7]? =
      some (hostWr Config.exampleParams .opa 1#32) := by decide

/-- 70_reset_and_hazards.md R250: the engine may complete between bare `wr` and `rd` lines, or after them. -/
theorem test_engine_between_bare_lines :
    expandProgram Config.exampleParams [.host 0 (.wr .cmd 8#32), .engine, .host 0 (.rd .result)] =
      [hostWr Config.exampleParams .cmd 8#32, .engine, hostRd Config.exampleParams .result] ∧
    expandProgram Config.exampleParams [.host 0 (.wr .cmd 8#32), .host 0 (.rd .result), .host 0 .wait] =
      [hostWr Config.exampleParams .cmd 8#32, hostRd Config.exampleParams .result, .engine,
       hostRd Config.exampleParams .status] := by decide

/-! ### Witnesses: states that meet the hypotheses of the obligations, a clause at a time -/

theorem inv_builtB : builtB.Inv where
  params_wf := by decide
  ram_wf := by decide
  ram_below := by decide
  len_le := by decide
  nbits_eq := by decide
  empty_geometry := by decide
  blocks_valid := by decide
  tables_fit := by decide
  tables_undefined := by decide
  lb_built := by decide
  sb_built := by decide
  busy_done := by decide
  reset_values := by decide

theorem inv_engineNext_createdB : (engineNext 7#32 createdB).Inv where
  params_wf := by decide
  ram_wf := by decide
  ram_below := by decide
  len_le := by decide
  nbits_eq := by decide
  empty_geometry := by decide
  blocks_valid := by decide
  tables_fit := by decide
  tables_undefined := by decide
  lb_built := by decide
  sb_built := by decide
  busy_done := by decide
  reset_values := by decide

theorem witness_OpcodeMapDecodes :
    (0x00000100#32).toNat % 256 = 0x00 ∧ 0x0C ≤ (0x0000000C#32).toNat % 256 ∧
    0x0C ≤ (0x000000FF#32).toNat % 256 := by decide

theorem witness_StepRunsDecodedCommand :
    (accepted 8#32 builtA).busy = true ∧ decode (accepted 8#32 builtA).cmd = .ok .rank ∧
    (accepted 8#32 builtA).schedule = [] ∧ (engineNext 8#32 builtA).busy = true ∧
    decode (engineNext 8#32 builtA).cmd = .ok .rank ∧ (engineNext 8#32 builtA).schedule = [.engine] :=
  ⟨rfl, rfl, rfl, rfl, rfl, rfl⟩

theorem witness_IllegalCommandWordsComplete :
    (engineNext 0x00000000#32 builtA).busy = true ∧ (engineNext 0x00000000#32 builtA).schedule = [.engine] ∧
    (engineNext 0x00000000#32 builtA).cmd.toNat % 256 = 0 ∧ 0x0C ≤ (engineNext 0x0000000C#32 builtA).cmd.toNat % 256 ∧
    1 ≤ (engineNext 0x00000101#32 builtA).cmd.toNat % 256 ∧ (engineNext 0x8000000B#32 builtA).cmd.toNat % 256 ≤ 0x0B ∧
    (engineNext 0x8000000B#32 builtA).cmd.toNat / 256 ≠ 0 ∧ (engineNext 0x0000000B#32 builtA).cmd = encode .rdsb := by
  decide

theorem witness_IdleBlockHoldsItsState :
    State.reset.busy = false ∧ State.reset.schedule = [] ∧ (turnNext .engine builtA).busy = false ∧
    (turnNext .engine builtA).schedule = [.engine] := by decide

theorem witness_PopcountTreeCountsWordBits : (0 : Nat) ≤ 5 ∧ (5 : Nat) ≤ 5 := by decide

theorem witness_Popcnt8CountsByteOperand :
    0xFF < (operands 0x100#32 0#32 .reset).opa.toNat ∧ (operands 0xFF#32 0#32 .reset).opa.toNat ≤ 0xFF := by decide

theorem witness_WrbyteStoresOneByte :
    builtA.ram.WF ∧ builtA.index ≠ .empty ∧ State.reset.ram.WF ∧ State.reset.index = .empty ∧
    0xFF < (operands 0#32 0x100#32 .reset).opb.toNat ∧ (operands 4096#32 0xFF#32 .reset).opb.toNat ≤ 0xFF ∧
    State.reset.params.maxBytes.toNat ≤ (operands 4096#32 0xFF#32 .reset).opa.toNat ∧
    (operands 4095#32 0xFF#32 .reset).opa.toNat < State.reset.params.maxBytes.toNat := by decide

theorem witness_RdbyteReturnsStoredByte :
    State.reset.params.maxBytes.toNat ≤ (operands 4096#32 0#32 .reset).opa.toNat ∧
    (operands 4095#32 0#32 .reset).opa.toNat < State.reset.params.maxBytes.toNat := by decide

theorem witness_ReadBackIsLastByteWritten :
    State.reset.ram.WF ∧ State.reset.index = .empty ∧ (4095#32).toNat < State.reset.params.maxBytes.toNat ∧
    (0xFF#32).toNat ≤ 0xFF ∧ (0x00#32).toNat ≤ 0xFF := by decide

/-- V-CB-5, V-CB-4, V-CB-14 and V-CB-13. -/
theorem witness_CreateFixesGeometry :
    ¬ (1 ≤ 32 ∧ 1 ≤ 48 ∧ 48 % 32 = 0) ∧
    (1 ≤ 32 ∧ 1 ≤ 256 ∧ 256 % 32 = 0 ∧ (operands 4097#32 0#32 .reset).params.maxBytes.toNat < 4097) ∧
    (1 ≤ 8 ∧ 1 ≤ 256 ∧ 256 % 8 = 0 ∧ 1025 ≤ State.reset.params.maxBytes.toNat ∧
      State.reset.params.sbCap.toNat < 8 * 1025 / 8 + 1) ∧
    (1024 ≤ State.reset.params.maxBytes.toNat ∧ 8 * 1024 / 256 + 1 ≤ State.reset.params.lbCap.toNat ∧
      8 * 1024 / 8 + 1 ≤ State.reset.params.sbCap.toNat) ∧
    (sizes 256#32 8#32 (operands 1024#32 0#32 .reset)).opa.toNat = 1024 ∧
    (sizes 256#32 8#32 (operands 1024#32 0#32 .reset)).lbscfg.toNat = 256 ∧
    (sizes 256#32 8#32 (operands 1024#32 0#32 .reset)).sbscfg.toNat = 8 := by decide

theorem witness_LargeBlockSizesAlwaysFit :
    State.reset.params.WF ∧ (operands 4096#32 0#32 .reset).opa.toNat ≤ State.reset.params.maxBytes.toNat ∧
    256 ≤ State.reset.lbscfg.toNat ∧ 32 ≤ State.reset.sbscfg.toNat ∧
    State.reset.lbscfg.toNat % State.reset.sbscfg.toNat = 0 := by decide

theorem witness_BuildFillsTables :
    State.reset.index = .empty ∧ createdB.index ≠ .empty ∧ builtB.index ≠ .empty := by decide

theorem witness_RebuildKeepsTables : builtB.Inv ∧ builtB.index = .built := ⟨inv_builtB, rfl⟩

theorem witness_RdlbReturnsLargeBlockEntry :
    createdB.index ≠ .built ∧ builtB.index = .built ∧
    builtB.nbits.toNat / builtB.lbs.toNat < (operands 3#32 0#32 builtB).opa.toNat ∧
    (operands 2#32 0#32 builtB).opa.toNat ≤ builtB.nbits.toNat / builtB.lbs.toNat ∧
    builtB.lb[(operands 2#32 0#32 builtB).opa.toNat]? = some 17#32 := by decide

theorem witness_RdsbReturnsSmallBlockEntry :
    createdB.index ≠ .built ∧ builtB.index = .built ∧
    builtB.nbits.toNat / builtB.sbs.toNat < (operands 6#32 0#32 builtB).opa.toNat ∧
    (operands 5#32 0#32 builtB).opa.toNat ≤ builtB.nbits.toNat / builtB.sbs.toNat ∧
    builtB.sb[(operands 5#32 0#32 builtB).opa.toNat]? = some 1#32 := by decide

theorem witness_LargeBlockReadoutIsSnapshot :
    builtB.Inv ∧ builtB.index = .built ∧ (2#32).toNat ≤ builtB.nbits.toNat / builtB.lbs.toNat :=
  ⟨inv_builtB, rfl, by decide⟩

theorem witness_SmallBlockReadoutIsSnapshot :
    builtB.Inv ∧ builtB.index = .built ∧ 2 = builtB.lbs.toNat / builtB.sbs.toNat ∧
    (5#32).toNat ≤ builtB.nbits.toNat / builtB.sbs.toNat ∧ (4#32).toNat % 2 = 0 ∧
    Spec.answers .rdsb builtB 5#32 0#32 1#32 := ⟨inv_builtB, rfl, by decide, by decide, by decide, _, rfl, rfl, rfl⟩

theorem witness_SinglePassBuildEqualsDefinition :
    1 ≤ createdB.lbs.toNat ∧ 1 ≤ createdB.sbs.toNat ∧ createdB.lbs.toNat % createdB.sbs.toNat = 0 := by decide

theorem witness_WordwiseCountEqualsBitCount :
    builtB.nbits.toNat = 8 * builtB.lenbytes.toNat ∧ 40 ≤ builtB.nbits.toNat := by decide

theorem witness_BitOrderIsMostSignificantFirst : (0 : Nat) < 8 ∧ (7 : Nat) < 8 := by decide

theorem witness_BytesBeyondLengthDoNotCount :
    builtB.nbits.toNat = 8 * builtB.lenbytes.toNat ∧
    (∀ a, a < builtB.lenbytes.toNat → Memory.read (builtB.ram ++ [(5, 0xFF#8)]) a = builtB.ram.read a) ∧
    ∃ t, exec .rank (operands 40#32 1#32 builtB) = .next t := ⟨by decide, by decide, _, rfl⟩

theorem witness_RankCountsBitsBeforeIndex :
    createdA.index ≠ .built ∧ builtA.index = .built ∧ 1 < (operands 0#32 2#32 builtA).opb.toNat ∧
    builtA.nbits.toNat < (operands 9#32 1#32 builtA).opa.toNat ∧ (operands 9#32 1#32 builtA).opb.toNat ≤ 1 ∧
    (operands 8#32 1#32 builtA).opa.toNat ≤ builtA.nbits.toNat ∧
    (operands 8#32 1#32 builtA).opb.toNat = true.toNat ∧ (operands 8#32 0#32 builtA).opb.toNat = false.toNat := by
  decide

theorem witness_SelectFindsLeastPosition :
    createdA.index ≠ .built ∧ builtA.index = .built ∧ 1 < (operands 0#32 2#32 builtA).opb.toNat ∧
    (operands 0#32 1#32 builtA).opa.toNat = 0 ∧ (operands 0#32 1#32 builtA).opb.toNat = true.toNat ∧
    Spec.count builtA true 0 builtA.nbits.toNat < (operands 5#32 1#32 builtA).opa.toNat ∧
    1 ≤ (operands 1#32 0#32 builtA).opa.toNat ∧ (operands 1#32 0#32 builtA).opb.toNat = false.toNat ∧
    (operands 4#32 1#32 builtA).opa.toNat ≤ Spec.count builtA true 0 builtA.nbits.toNat := by decide

theorem witness_RankProperties :
    builtA.index = .built ∧ (7#32).toNat < builtA.nbits.toNat ∧ Spec.answers .rank builtA 7#32 1#32 4#32 ∧
    Spec.answers .rank builtA (7#32 + 1#32) 1#32 4#32 ∧ Spec.answers .rank builtA 7#32 0#32 3#32 :=
  ⟨rfl, by decide, ⟨_, rfl, rfl, rfl⟩, ⟨_, rfl, rfl, rfl⟩, ⟨_, rfl, rfl, rfl⟩⟩

theorem witness_SelectProperties :
    builtA.index = .built ∧ (1#32).toNat = true.toNat ∧ 1 ≤ (1#32).toNat ∧
    (4#32).toNat ≤ Spec.count builtA true 0 builtA.nbits.toNat ∧ (1#32).toNat < (4#32).toNat ∧
    Spec.answers .select builtA 1#32 1#32 0#32 ∧ Spec.answers .select builtA 4#32 1#32 6#32 ∧
    (0#32).toNat = 0 ∧ Spec.count builtA true 0 builtA.nbits.toNat < (5#32).toNat :=
  ⟨rfl, rfl, by decide, by decide, by decide, ⟨_, rfl, rfl, rfl⟩, ⟨_, rfl, rfl, rfl⟩, rfl, by decide⟩

theorem witness_TableRankEqualsRank : builtB.Inv ∧ builtB.index = .built ∧ 40 ≤ builtB.nbits.toNat :=
  ⟨inv_builtB, rfl, by decide⟩

theorem witness_TableSelectEqualsSelect :
    builtB.Inv ∧ builtB.index = .built ∧ 1 ≤ 18 ∧ 18 ≤ Spec.count builtB true 0 builtB.nbits.toNat :=
  ⟨inv_builtB, rfl, by decide, by decide⟩

theorem witness_FailedCommandChangesOnlyStatus :
    ∃ t, exec .rank createdA = .next t ∧ t.error = some .notBuilt := ⟨_, rfl, rfl⟩

theorem witness_CommandsRaiseOnlyTheirCauses :
    ∃ t, exec .create (operands 4097#32 0#32 .reset) = .next t ∧ t.error = some .lengthCapacity := ⟨_, rfl, rfl⟩

theorem witness_IndexStateTransitions :
    (∃ t, exec .build .reset = .next t ∧ t.error ≠ none) ∧ (∃ t, exec .clear builtA = .next t ∧ t.error = none) ∧
    (∃ t, exec .create builtA = .next t ∧ t.error = none) ∧ (∃ t, exec .build builtA = .next t ∧ t.error = none) ∧
    (∃ t, exec .rank builtA = .next t) :=
  ⟨⟨_, rfl, by decide⟩, ⟨_, rfl, rfl⟩, ⟨_, rfl, rfl⟩, ⟨_, rfl, rfl⟩, ⟨_, rfl⟩⟩

theorem witness_GeometryAndTableFrame :
    (∃ t, exec .build createdA = .next t) ∧ ∃ t, exec .rank (operands 4#32 1#32 builtA) = .next t :=
  ⟨⟨_, rfl⟩, ⟨_, rfl⟩⟩

theorem witness_VectorIsImmutableUnderAnIndex :
    (∃ t, exec .wrbyte builtA = .next t) ∧ builtA.index ≠ .empty ∧ (∃ t, exec .rdbyte .reset = .next t) ∧
    ∃ t, step (engineNext 3#32 builtA) = .next t ∧ t.index ≠ .empty :=
  ⟨⟨_, rfl⟩, by decide, ⟨_, rfl⟩, ⟨_, rfl, by decide⟩⟩

theorem witness_CommandsIgnoreUnreadOperands :
    (∃ t, exec .rdbyte builtA = .next t) ∧ (∃ t, exec .rank builtA = .next t) ∧ ∃ t, exec .build builtA = .next t :=
  ⟨⟨_, rfl⟩, ⟨_, rfl⟩, ⟨_, rfl⟩⟩

theorem witness_StatusReportsErrorNumbers :
    State.reset.error = none ∧ (State.reset.raiseError .reservedBits).error = some .reservedBits := by decide

theorem witness_HostReadReturnsRegisterWithoutSideEffect :
    builtA.inReset = false ∧ (hostNext 0x3C .read builtA).schedule = [Spec.hostAt builtA 0x3C .read] ∧
    (0x3C, 1025#32) ∈ Spec.registerMap builtA ∧ 0x40 ≤ 0xFC ∧ 0xFC ≤ 0xFC ∧ 0xFC % 4 = 0 ∧
    (hostNext 0xFC .read builtA).schedule = [Spec.hostAt builtA 0xFC .read] := by decide

theorem witness_AccessOutsideWindowDoesNotReachBlock :
    (turnNext (.host { addr := 0x100, width := 4, action := .write 1#32 }) .reset).schedule =
      [.host { addr := 0x100, width := 4, action := .write 1#32 }] ∧
    (∀ x, 0x100 ≤ x → x < 0x100 + max 1 4 →
      x < State.reset.params.baseAddr ∨ State.reset.params.baseAddr + 0x100 ≤ x) ∧
    (∀ x, 0xFFC ≤ x → x < 0xFFC + max 1 4 → x < at1000.params.baseAddr ∨ at1000.params.baseAddr + 0x100 ≤ x) := by
  refine ⟨by decide, fun x hx _ => .inr hx, fun x _ hx => .inl ?_⟩
  simp [at1000] at hx ⊢; omega

theorem witness_ReadOnlyAndReservedOffsetsIgnoreWrites :
    builtA.inReset = false ∧ (accepted 8#32 builtA).inReset = false ∧
    (hostNext 0x20 (.write 1#32) builtA).schedule = [Spec.hostAt builtA 0x20 (.write 1#32)] ∧
    (0x20 = 0x14 ∨ (0x20 ≤ 0x20 ∧ 0x20 ≤ 0xFC ∧ 0x20 % 4 = 0)) ∧ (0x20 ≤ 0xFC ∧ 0xFC ≤ 0xFC ∧ 0xFC % 4 = 0) := by decide

theorem witness_OperandWriteStoresWhileIdle :
    builtA.inReset = false ∧ builtA.busy = false ∧
    (hostNext 0x04 (.write 9#32) builtA).schedule = [Spec.hostAt builtA 0x04 (.write 9#32)] ∧
    (hostNext 0x08 (.write 9#32) builtA).schedule = [Spec.hostAt builtA 0x08 (.write 9#32)] ∧
    (hostNext 0x0C (.write 9#32) builtA).schedule = [Spec.hostAt builtA 0x0C (.write 9#32)] ∧
    (hostNext 0x10 (.write 9#32) builtA).schedule = [Spec.hostAt builtA 0x10 (.write 9#32)] := by decide

theorem witness_CommandWriteIsAcceptedWhileIdle :
    builtA.inReset = false ∧ builtA.busy = false ∧
    (hostNext 0x00 (.write 0xFFFFFFFF#32) builtA).schedule = [Spec.hostAt builtA 0x00 (.write 0xFFFFFFFF#32)] := by decide

theorem witness_DroppedWriteSetsOverrun :
    ((accepted 8#32 builtA).inReset = false ∧ (accepted 8#32 builtA).busy = true ∧
      (hostNext 0x10 (.write 1#32) (accepted 8#32 builtA)).schedule = [Spec.hostAt builtA 0x10 (.write 1#32)] ∧
      (hostNext 0x18 (.write 8#32) (accepted 8#32 builtA)).schedule = [Spec.hostAt builtA 0x18 (.write 8#32)] ∧
      (hostNext 0x1C (.write 1#32) (accepted 8#32 builtA)).schedule = [Spec.hostAt builtA 0x1C (.write 1#32)]) ∧
    (∃ t, step (hostNext 0x18 (.write 8#32) { builtA with overrun := true }) = .next t ∧ t.overrun = false) ∧
    ∃ t, step (hostNext 0x00 (.write 9#32) (accepted 8#32 builtA)) = .next t ∧ t.overrun = true :=
  ⟨by decide, ⟨_, rfl, rfl⟩, ⟨_, rfl, rfl⟩⟩

theorem witness_StatusWriteClearsFlags :
    builtA.inReset = false ∧
    (hostNext 0x18 (.write 0xA#32) builtA).schedule = [Spec.hostAt builtA 0x18 (.write 0xA#32)] := by decide

theorem witness_ControlRegister :
    builtA.inReset = false ∧ (hostNext 0x1C (.write 1#32) builtA).schedule = [Spec.hostAt builtA 0x1C (.write 1#32)] ∧
    (∃ t, exec .clear builtA = .next t) ∧ (turnNext .resetAssert builtA).schedule = [.resetAssert] :=
  ⟨rfl, rfl, ⟨_, rfl⟩, rfl⟩

theorem witness_InterruptFollowsCompletion :
    (∃ t, exec .clear builtA = .next t) ∧ builtA.inReset = false ∧ builtA.busy = false ∧
    (hostNext 0x00 (.write 8#32) builtA).schedule = [Spec.hostAt builtA 0x00 (.write 8#32)] ∧
    (2#32).getLsbD 1 = true ∧
    (hostNext 0x18 (.write 2#32) builtA).schedule = [Spec.hostAt builtA 0x18 (.write 2#32)] :=
  ⟨⟨_, rfl⟩, rfl, rfl, rfl, rfl, rfl⟩

theorem witness_BusyBlockHoldsOperandsAndOldState :
    (accepted 8#32 builtA).busy = true ∧
    ∃ t, step (hostNext 0x04 (.write 0#32) (accepted 8#32 builtA)) = .next t ∧ t.busy = true := ⟨rfl, _, rfl, rfl⟩

theorem witness_ResetAbortsAndRestores :
    (turnNext .resetAssert (accepted 8#32 builtA)).schedule = [.resetAssert] ∧
    { builtA with schedule := [.resetAssert, Spec.hostAt builtA 0xFF .read] }.schedule =
      [.resetAssert, Spec.hostAt builtA 0xFF .read] ∧
    { builtA with schedule := [.resetAssert, .resetDone] }.schedule = [.resetAssert, .resetDone] := by decide

theorem witness_OnlyHostAndResetChangeHostRegisters :
    (∃ t, step (engineNext 5#32 builtA) = .next t) ∧
    (∀ rest, (engineNext 5#32 builtA).schedule ≠ .resetAssert :: rest) ∧
    ∀ a v rest, a.action = .write v → (engineNext 5#32 builtA).schedule ≠ .host a :: rest := by
  refine ⟨⟨_, rfl⟩, fun _ => ?_, fun _ _ _ _ => ?_⟩ <;> simp [engineNext, State.acceptedNext]

theorem witness_InvariantHoldsAtReset : Config.exampleParams.WF := by decide

theorem witness_StepKeepsInvariant :
    (engineNext 7#32 createdB).Inv ∧ ∃ t, step (engineNext 7#32 createdB) = .next t ∧ t.index = .built :=
  ⟨inv_engineNext_createdB, _, rfl, rfl⟩

theorem witness_AcceptedCommandCompletes :
    (hostNext 0x18 .read (accepted 8#32 builtA)).busy = true ∧
    (hostNext 0x18 .read (accepted 8#32 builtA)).inReset = false ∧
    ∀ t ∈ (hostNext 0x18 .read (accepted 8#32 builtA)).schedule,
      t ≠ .resetAssert ∧ Turn.Defined builtA.params t := by
  refine ⟨rfl, rfl, fun t ht => ?_⟩
  rw [List.mem_singleton.1 ht]
  exact ⟨by decide, fun _ => by decide⟩

theorem witness_DefinedTurnsRunSafely :
    (hostNext 0xFC (.write 1#32) builtA).inReset = false ∧
    ∀ t ∈ (hostNext 0xFC (.write 1#32) builtA).schedule, t ≠ .resetAssert ∧ Turn.Defined builtA.params t := by
  refine ⟨rfl, fun t ht => ?_⟩
  rw [List.mem_singleton.1 ht]
  exact ⟨by decide, fun _ => by decide⟩

theorem witness_HostMnemonicRunsItsCommand :
    builtA.busy = false ∧ builtA.inReset = false ∧
    { builtA with schedule := HostOp.expand builtA.params 2 (.rank 4#32 1#32) }.schedule =
      HostOp.expand builtA.params 2 (.rank 4#32 1#32) := ⟨rfl, rfl, rfl⟩

end Sys2Proof.Tests
end

/-! ### Proofs: the scope (00_scope.md) -/

namespace Sys2Proof.Machine

/-- With BUSY = 0 the engine's turn changes nothing (00_scope.md R8, 60_exceptions.md R218). -/
theorem State.engineTurn_of_not_busy {s : State} (hb : s.busy = false) : s.engineTurn = .next s := by
  rcases s.engineTurn_cases with ⟨-, h⟩ | ⟨hbusy, -⟩ | ⟨hbusy, -⟩
  · exact h
  · exact absurd hbusy (by simp [hb])
  · exact absurd hbusy (by simp [hb])

/-- Settles O5: both forms of an engine step are `engineTurn`, which is idle where BUSY = 0; removing the turn from the
schedule leaves BUSY as it was. -/
theorem idleBlockHoldsItsState : Obligations.IdleBlockHoldsItsState := by
  intro s hb
  constructor
  · intro hs
    rw [step_nil hs, State.engineTurn_of_not_busy hb]
  · intro rest hs
    have hidle : (s.afterTurn rest).busy = false := by rw [State.afterTurn_busy, hb]
    calc step s = (s.afterTurn rest).engineTurn := step_cons hs
      _ = .next (s.afterTurn rest) := State.engineTurn_of_not_busy hidle

end Sys2Proof.Machine

/-! ### Proofs: the state (10_state.md): what commands do to it -/

namespace Sys2Proof.Machine

/-- `exec_cases` of a next state: an error over nothing, or a success over the command's change. -/
theorem exec_next_cases {i : Instr} {s t : State} (hx : exec i s = .next t) :
    (∃ c, c ∈ Spec.causesOf i ∧ t = s.raiseError c) ∨ (t.error = none ∧ ∃ v, t = (commandChange i s).complete v) := by
  rcases exec_cases i s with ⟨c, hc, h⟩ | ⟨v, h⟩ <;> cases hx.symm.trans h
  · exact .inl ⟨c, hc, rfl⟩
  · exact .inr ⟨rfl, v, rfl⟩

/-- A command that raises an error does not succeed. -/
theorem exec_ne_raiseError_of_success {i : Instr} {s t : State} (hx : exec i s = .next t) (he : t.error = none)
    (c : ErrorCause) : exec i s ≠ .next (s.raiseError c) := by
  intro h
  cases hx.symm.trans h
  simp at he

/-- WRBYTE succeeds only in EMPTY and below MAX_BYTES (41_vector_memory.md R121). -/
theorem execWrbyte_success {s t : State} (hx : exec .wrbyte s = .next t) (he : t.error = none) :
    s.index = .empty ∧ s.opa.toNat < s.params.maxBytes.toNat := by
  have hok := exec_ne_raiseError_of_success hx he
  rcases execWrbyte_cases s with ⟨-, h⟩ | ⟨-, -, h⟩ | ⟨-, -, -, h⟩ | ⟨hi, -, ha, -⟩
  · exact absurd h (hok _)
  · exact absurd h (hok _)
  · exact absurd h (hok _)
  · exact ⟨hi, ha⟩

/-- CREATE succeeds only with its checks passed (42_index_build.md R141 to R143). -/
theorem execCreate_success {s t : State} (hx : exec .create s = .next t) (he : t.error = none) :
    s.opa.toNat ≤ s.params.maxBytes.toNat ∧
    (1 ≤ s.sbscfg.toNat ∧ 1 ≤ s.lbscfg.toNat ∧ s.lbscfg.toNat % s.sbscfg.toNat = 0) ∧
    (8 * s.opa.toNat / s.lbscfg.toNat + 1 ≤ s.params.lbCap.toNat ∧
      8 * s.opa.toNat / s.sbscfg.toNat + 1 ≤ s.params.sbCap.toNat) := by
  have hok := exec_ne_raiseError_of_success hx he
  rcases execCreate_cases s with ⟨-, h⟩ | ⟨-, -, h⟩ | ⟨-, -, -, h⟩ | ⟨hvalid, hlen, hfit, -⟩
  · exact absurd h (hok _)
  · exact absurd h (hok _)
  · exact absurd h (hok _)
  · exact ⟨hlen, hvalid, hfit⟩

/-- BUILD succeeds only where an index exists (42_index_build.md R147). -/
theorem execBuild_success {s t : State} (hx : exec .build s = .next t) (he : t.error = none) : s.index ≠ .empty := by
  rcases execBuild_cases s with ⟨-, h⟩ | ⟨hi, -⟩
  · exact absurd h (exec_ne_raiseError_of_success hx he _)
  · exact hi

/-- `t` has the registers the host owns, and everything outside the block, as `s` has them. An update of
other fields has it by the defaults. -/
structure State.SameHost (s t : State) : Prop where
  cmd : t.cmd = s.cmd := by rfl
  opa : t.opa = s.opa := by rfl
  opb : t.opb = s.opb := by rfl
  lbscfg : t.lbscfg = s.lbscfg := by rfl
  sbscfg : t.sbscfg = s.sbscfg := by rfl
  ie : t.ie = s.ie := by rfl
  overrun : t.overrun = s.overrun := by rfl
  params : t.params = s.params := by rfl
  inReset : t.inReset = s.inReset := by rfl
  schedule : t.schedule = s.schedule := by rfl
  readLog : t.readLog = s.readLog := by rfl

/-- The change a command makes before it completes is to the vector RAM and the index alone. -/
theorem commandChange_sameHost (i : Instr) (s : State) : State.SameHost s (commandChange i s) := by
  cases i <;> exact {}

theorem State.SameHost.complete {s t : State} (h : State.SameHost s t) (v : Word) : State.SameHost s (t.complete v) :=
  { h with }

/-- A completed command has set DONE, cleared BUSY and left the host's registers alone (60_exceptions.md R206, R207). -/
theorem exec_done_busy_sameHost {i : Instr} {s t : State} (hx : exec i s = .next t) :
    t.done = true ∧ t.busy = false ∧ State.SameHost s t := by
  rcases exec_next_cases hx with ⟨c, -, rfl⟩ | ⟨-, v, rfl⟩
  · exact ⟨rfl, rfl, {}⟩
  · exact ⟨rfl, rfl, (commandChange_sameHost i s).complete v⟩

/-- Every command answers a next state (60_exceptions.md R200). -/
theorem exec_answers (i : Instr) (s : State) : ∃ t, exec i s = .next t := by
  rcases exec_cases i s with ⟨c, -, h⟩ | ⟨v, h⟩
  · exact ⟨_, h⟩
  · exact ⟨_, h⟩

/-- Settles O32: a command ends in one completion, over a change that is to the vector RAM and the index alone. -/
theorem everyCommandCompletesAndKeepsHostRegisters : Obligations.EveryCommandCompletesAndKeepsHostRegisters := by
  intro i s
  obtain ⟨t, hx⟩ := exec_answers i s
  obtain ⟨hdone, hbusy, hhost⟩ := exec_done_busy_sameHost hx
  exact ⟨t, hx, hdone, hbusy, hhost.cmd, hhost.opa, hhost.opb, hhost.lbscfg, hhost.sbscfg, hhost.ie, hhost.overrun,
    hhost.params, hhost.inReset, hhost.schedule, hhost.readLog⟩

/-- Only CLEAR, CREATE and BUILD change STATE (10_state.md R28). -/
theorem commandChange_index {i : Instr} (hclear : i ≠ .clear) (hcreate : i ≠ .create) (hbuild : i ≠ .build) (s : State) :
    (commandChange i s).index = s.index := by
  cases i with
  | clear => exact absurd rfl hclear
  | create => exact absurd rfl hcreate
  | build => exact absurd rfl hbuild
  | popcnt8 | popcnt32 | wrbyte | rdbyte | rank | select | rdlb | rdsb => rfl

/-- Settles O35: an error completion keeps STATE; a success leaves it as the command's change does, and BUILD succeeds
only where an index exists. -/
theorem indexStateTransitions : Obligations.IndexStateTransitions := by
  intro i s t hx
  rcases exec_next_cases hx with ⟨c, -, rfl⟩ | ⟨he, v, rfl⟩
  · exact ⟨fun _ => rfl, fun he => by simp at he, fun he => by simp at he, fun he => by simp at he, fun _ _ _ => rfl⟩
  · refine ⟨fun hn => absurd he hn, ?_, ?_, ?_, fun hclear hcreate hbuild => commandChange_index hclear hcreate hbuild s⟩
    · rintro - rfl
      rfl
    · rintro - rfl
      rfl
    · rintro - rfl
      exact ⟨execBuild_success hx he, rfl⟩

end Sys2Proof.Machine

/-! ### Proofs: the state (10_state.md): the invariant -/

namespace Sys2Proof.Machine

/-- `t` has the device, the vector RAM, the geometry registers, STATE and the tables of `s`: everything the invariant
speaks of but the command protocol and reset. An update of other fields has it by the defaults. -/
structure State.SameIndex (s t : State) : Prop where
  params : t.params = s.params := by rfl
  ram : t.ram = s.ram := by rfl
  index : t.index = s.index := by rfl
  lenbytes : t.lenbytes = s.lenbytes := by rfl
  nbits : t.nbits = s.nbits := by rfl
  lbs : t.lbs = s.lbs := by rfl
  sbs : t.sbs = s.sbs := by rfl
  lb : t.lb = s.lb := by rfl
  sb : t.sb = s.sb := by rfl

/-- The invariant passes to a state with the same index, if that state's DONE and its reset are in order. -/
theorem State.Inv.of_sameIndex {s t : State} (h : s.Inv) (e : State.SameIndex s t)
    (hdone : t.busy = true → t.done = false) (hreset : t.inReset = true → t = t.assertReset) : t.Inv := by
  obtain ⟨hparams, hram, hindex, hlen, hnbits, hlbs, hsbs, hlb, hsb⟩ := e
  have hcount := State.spec_count_of_ram_eq hram
  exact {
    params_wf := by rw [hparams]; exact h.params_wf
    ram_wf := by rw [hram]; exact h.ram_wf
    ram_below := by rw [hram, hparams]; exact h.ram_below
    len_le := by rw [hlen, hparams]; exact h.len_le
    nbits_eq := by rw [hnbits, hlen]; exact h.nbits_eq
    empty_geometry := by rw [hindex, hlen, hlbs, hsbs]; exact h.empty_geometry
    blocks_valid := by rw [hindex, hlbs, hsbs]; exact h.blocks_valid
    tables_fit := by rw [hindex, hnbits, hlbs, hsbs, hparams]; exact h.tables_fit
    tables_undefined := by rw [hindex, hlb, hsb]; exact h.tables_undefined
    lb_built := by simp only [hindex, hlb, hnbits, hlbs, hcount]; exact h.lb_built
    sb_built := by simp only [hindex, hsb, hnbits, hlbs, hsbs, hcount]; exact h.sb_built
    busy_done := hdone
    reset_values := hreset }

/-- Outside reset the protocol's part of the invariant is that DONE is 0 while BUSY is 1. -/
theorem State.Inv.of_sameIndex_running {s t : State} (h : s.Inv) (e : State.SameIndex s t)
    (hdone : t.busy = true → t.done = false) (hr : t.inReset = false) : t.Inv :=
  h.of_sameIndex e hdone fun ht => by simp [hr] at ht

/-! #### Reset, and the turn taken -/

/-- The invariant holds after reset on every device within the bounds of 00_scope.md R6. -/
theorem State.resetFor_inv {p : Params} (hp : p.WF) : (State.resetFor p).Inv where
  params_wf := hp
  ram_wf := Memory.nil_wf
  ram_below := by simp [Memory.Below]
  len_le := by simp
  nbits_eq := rfl
  empty_geometry _ := ⟨rfl, rfl, rfl⟩
  blocks_valid h := absurd rfl h
  tables_fit h := absurd rfl h
  tables_undefined _ := ⟨rfl, rfl⟩
  lb_built h := by simp at h
  sb_built h := by simp at h
  busy_done _ := rfl
  reset_values h := by simp at h

/-- Asserting reset reaches the invariant, whatever the block was doing (70_reset_and_hazards.md R240). -/
theorem State.Inv.assertReset {s : State} (h : s.Inv) : s.assertReset.Inv :=
  (State.resetFor_inv h.params_wf).of_sameIndex {} (fun _ => rfl) fun _ => rfl

theorem State.Inv.finishReset {s : State} (h : s.Inv) : s.finishReset.Inv :=
  h.of_sameIndex_running {} h.busy_done rfl

/-- The turns to come stand outside the block. -/
theorem State.Inv.afterTurn {s : State} (h : s.Inv) (rest : List Turn) : (s.afterTurn rest).Inv :=
  h.of_sameIndex {} h.busy_done fun hr =>
    congrArg (State.afterTurn rest) (h.reset_values hr)

/-- During reset the block is idle. -/
theorem State.Inv.inReset_eq_false_of_busy {s : State} (h : s.Inv) (hb : s.busy = true) : s.inReset = false := by
  by_contra hr
  have hidle : s.busy = false := by rw [h.reset_values (by simpa using hr)]; rfl
  simp [hb] at hidle

/-! #### The command protocol -/

theorem State.Inv.complete {s : State} (h : s.Inv) (hr : s.inReset = false) (v : Word) : (s.complete v).Inv :=
  h.of_sameIndex_running {} (by simp) hr

theorem State.Inv.raiseError {s : State} (h : s.Inv) (hr : s.inReset = false) (c : ErrorCause) : (s.raiseError c).Inv :=
  h.of_sameIndex_running {} (by simp) hr

/-! #### The changes of WRBYTE, CLEAR, CREATE and BUILD -/

/-- In EMPTY a byte may be written below MAX_BYTES. -/
theorem State.Inv.writeByte {s : State} (h : s.Inv) (hr : s.inReset = false) (hi : s.index = .empty) {a : Nat}
    (ha : a < s.params.maxBytes.toNat) (v : Byte) : (s.writeByte a v).Inv :=
  { h with
    ram_wf := Memory.write_wf h.ram_wf a v
    ram_below := Memory.write_below h.ram_below ha v
    lb_built := fun hbuilt => by simp [hi] at hbuilt
    sb_built := fun hbuilt => by simp [hi] at hbuilt
    reset_values := fun ht => by simp [hr] at ht }

/-- CLEAR leaves the vector RAM, the geometry and the tables as they are after reset. -/
theorem State.Inv.clear {s : State} (h : s.Inv) (hr : s.inReset = false) : s.zeroRam.discardIndex.Inv :=
  (State.resetFor_inv h.params_wf).of_sameIndex_running {} h.busy_done hr

/-- 8 × L fits NBITS on every device (10_state.md R31, 00_scope.md R6). -/
theorem State.Inv.toWord_bits_toNat {s : State} (h : s.Inv) {len : Word} (hlen : len.toNat ≤ s.params.maxBytes.toNat) :
    (toWord (8 * len.toNat)).toNat = 8 * len.toNat := by
  obtain ⟨-, hmax, -⟩ := h.params_wf
  exact toWord_toNat (by omega)

/-- With CREATE's checks passed (42_index_build.md R141 to R143) the new index is in order. -/
theorem State.Inv.newIndex {s : State} (h : s.Inv) (hr : s.inReset = false) {len lbs sbs : Word}
    (hlen : len.toNat ≤ s.params.maxBytes.toNat)
    (hvalid : 1 ≤ sbs.toNat ∧ 1 ≤ lbs.toNat ∧ lbs.toNat % sbs.toNat = 0)
    (hfit : 8 * len.toNat / lbs.toNat + 1 ≤ s.params.lbCap.toNat ∧ 8 * len.toNat / sbs.toNat + 1 ≤ s.params.sbCap.toNat) :
    (s.newIndex len lbs sbs).Inv :=
  { h with
    len_le := hlen
    nbits_eq := h.toWord_bits_toNat hlen
    empty_geometry := fun he => by simp at he
    blocks_valid := fun _ => ⟨hvalid.2.1, hvalid.1, hvalid.2.2⟩
    tables_fit := fun _ => by
      rw [State.newIndex_nbits, h.toWord_bits_toNat hlen]
      exact hfit
    tables_undefined := fun _ => ⟨rfl, rfl⟩
    lb_built := fun hbuilt => by simp at hbuilt
    sb_built := fun hbuilt => by simp at hbuilt
    reset_values := fun ht => by simp [hr] at ht }

/-- A count of 1 bits below N fits a table entry. -/
theorem State.toWord_ones_toNat (s : State) (lo : Nat) {hi : Nat} (h : hi ≤ s.nbits.toNat) :
    (toWord (s.ones lo hi)).toNat = Spec.count s true lo hi := by
  have hle := s.count_le true lo hi
  have hN := s.nbits.isLt
  rw [State.ones, toWord_toNat (by omega), State.count_eq_spec]

/-- BUILD fills LB with the values of 42_index_build.md R145. -/
theorem State.fillTables_lb_toNat (s : State) :
    s.fillTables.lb.map BitVec.toNat = (List.range (s.nbits.toNat / s.lbs.toNat + 1)).map fun k =>
      Spec.count s true 0 (k * s.lbs.toNat) := by
  rw [State.fillTables_lb, List.map_map]
  refine List.map_congr_left fun k hk => ?_
  have hk : k ≤ s.nbits.toNat / s.lbs.toNat := Nat.le_of_lt_succ (List.mem_range.1 hk)
  exact s.toWord_ones_toNat 0 (Nat.mul_le_of_le_div _ _ _ hk)

/-- BUILD fills SB with the values of 42_index_build.md R146. -/
theorem State.fillTables_sb_toNat (s : State) :
    s.fillTables.sb.map BitVec.toNat = (List.range (s.nbits.toNat / s.sbs.toNat + 1)).map fun j =>
      Spec.count s true (j / (s.lbs.toNat / s.sbs.toNat) * s.lbs.toNat) (j * s.sbs.toNat) := by
  rw [State.fillTables_sb, List.map_map]
  refine List.map_congr_left fun j hj => ?_
  have hj : j ≤ s.nbits.toNat / s.sbs.toNat := Nat.le_of_lt_succ (List.mem_range.1 hj)
  exact s.toWord_ones_toNat _ (Nat.mul_le_of_le_div _ _ _ hj)

/-- BUILD on an index gives its tables the values the invariant asks for. -/
theorem State.Inv.fillTables {s : State} (h : s.Inv) (hr : s.inReset = false) (hi : s.index ≠ .empty) :
    s.fillTables.Inv :=
  { h with
    empty_geometry := fun he => by simp at he
    blocks_valid := fun _ => h.blocks_valid hi
    tables_fit := fun _ => h.tables_fit hi
    tables_undefined := fun hn => absurd rfl hn
    lb_built := fun _ => s.fillTables_lb_toNat
    sb_built := fun _ => s.fillTables_sb_toNat
    reset_values := fun ht => by simp [hr] at ht }

/-! #### Commands -/

/-- The change of a command that succeeds keeps the invariant. -/
theorem State.Inv.commandChange {i : Instr} {s t : State} (h : s.Inv) (hr : s.inReset = false)
    (hx : exec i s = .next t) (he : t.error = none) : (Machine.commandChange i s).Inv := by
  cases i with
  | wrbyte =>
    obtain ⟨hi, ha⟩ := execWrbyte_success hx he
    exact h.writeByte hr hi ha _
  | clear => exact h.clear hr
  | create =>
    obtain ⟨hlen, hvalid, hfit⟩ := execCreate_success hx he
    exact h.newIndex hr hlen hvalid hfit
  | build => exact h.fillTables hr (execBuild_success hx he)
  | popcnt8 | popcnt32 | rdbyte | rank | select | rdlb | rdsb => exact h

theorem State.Inv.exec {i : Instr} {s t : State} (h : s.Inv) (hr : s.inReset = false) (hx : exec i s = .next t) :
    t.Inv := by
  rcases exec_next_cases hx with ⟨c, -, rfl⟩ | ⟨he, v, rfl⟩
  · exact h.raiseError hr c
  · exact (h.commandChange hr hx he).complete ((commandChange_sameHost i s).inReset.trans hr) v

theorem State.Inv.engineTurn {s t : State} (h : s.Inv) (ht : s.engineTurn = .next t) : t.Inv := by
  rcases s.engineTurn_cases with ⟨-, hidle⟩ | ⟨hb, e, -, herr⟩ | ⟨hb, i, -, hexec⟩
  · cases ht.symm.trans hidle
    exact h
  · cases ht.symm.trans herr
    exact h.raiseError (h.inReset_eq_false_of_busy hb) _
  · exact h.exec (h.inReset_eq_false_of_busy hb) (hexec.symm.trans ht)

/-! #### Host accesses -/

theorem State.Inv.deliver {s : State} (h : s.Inv) (hr : s.inReset = false) (v : Word) : (s.deliver v).Inv :=
  h.of_sameIndex_running {} h.busy_done hr

/-- A host write changes nothing of the index, leaves reset alone, and sets BUSY only where it clears DONE. -/
theorem State.writeReg_frame {s : State} (hdone : s.busy = true → s.done = false) (r : HostReg) (v : Word) :
    State.SameIndex s (s.writeReg r v) ∧ (s.writeReg r v).inReset = s.inReset ∧
      ((s.writeReg r v).busy = true → (s.writeReg r v).done = false) := by
  rcases s.writeReg_cases r v with ⟨-, -, e⟩ | ⟨-, -, e⟩ | ⟨-, ⟨-, e⟩ | ⟨-, e⟩ | ⟨-, e⟩ | ⟨-, e⟩⟩ | ⟨-, e⟩ | ⟨-, e⟩ |
    ⟨-, e⟩ <;> rw [e] <;> exact ⟨{}, rfl, by simp +contextual [hdone]⟩

theorem State.Inv.writeReg {s : State} (h : s.Inv) (hr : s.inReset = false) (r : HostReg) (v : Word) :
    (s.writeReg r v).Inv := by
  obtain ⟨hsame, hreset, hdone⟩ := State.writeReg_frame h.busy_done r v
  exact h.of_sameIndex_running hsame hdone (hreset.trans hr)

theorem State.Inv.writeOffset {s : State} (h : s.Inv) (hr : s.inReset = false) (off : Nat) (v : Word) :
    (s.writeOffset off v).Inv := by
  rcases s.writeOffset_cases off v with ⟨r, -, e⟩ | ⟨-, e⟩ <;> rw [e]
  · exact h.writeReg hr r v
  · exact h

theorem State.Inv.hostAccess {s t : State} (h : s.Inv) {a : HostAccess} (ht : s.hostAccess a = .next t) : t.Inv := by
  rcases s.hostAccess_cases a with ⟨-, e⟩ | ⟨-, -, e⟩ | ⟨-, -, -, e⟩ | ⟨-, hr, -, -, e⟩ | ⟨v, -, hr, -, -, e⟩ <;>
    cases ht.symm.trans e
  · exact h
  · exact h.deliver hr _
  · exact h.writeOffset hr _ v

/-- Settles O56: each agent's turn keeps the invariant. During reset only idle turns, accesses outside the window and
reset itself have a next state; outside it host writes leave the index alone, and a command's change comes with the
checks that put it in order. -/
theorem stepKeepsInvariant : Obligations.StepKeepsInvariant := by
  intro s t h ht
  rcases step_next_cases ht with ⟨rest, -, he⟩ | ⟨a, rest, -, ha⟩ | ⟨rest, -, rfl⟩ | ⟨rest, -, rfl⟩
  · exact (h.afterTurn rest).engineTurn he
  · exact (h.afterTurn rest).hostAccess ha
  · exact (h.afterTurn rest).assertReset
  · exact (h.afterTurn rest).finishReset

/-- Settles O55: `State.reset` is the state after reset of the example device, which is within the bounds. -/
theorem invariantHoldsAtReset : Obligations.InvariantHoldsAtReset :=
  ⟨fun _ hp => State.resetFor_inv hp, State.resetFor_inv (by decide)⟩

end Sys2Proof.Machine

/-! ### Proofs: the state (10_state.md): STATUS, CTRL and IRQ as words -/

namespace Sys2Proof.Machine

/-- Concatenation of fields is a sum of weighted fields. -/
theorem append_toNat {m n : Nat} (x : BitVec m) (y : BitVec n) : (x ++ y).toNat = x.toNat * 2 ^ n + y.toNat := by
  rw [BitVec.toNat_append, ← Nat.shiftLeft_add_eq_or_of_lt y.isLt, Nat.shiftLeft_eq]

/-- STATUS as the sum of its fields (10_state.md R27). -/
theorem State.statusWord_toNat (s : State) :
    s.statusWord.toNat = s.errcause.toNat * 2 ^ 12 + s.errcode.toNat * 2 ^ 8 + s.index.code.toNat * 2 ^ 4 +
      s.overrun.toNat * 2 ^ 3 + s.err.toNat * 2 ^ 2 + s.done.toNat * 2 + s.busy.toNat := by
  simp only [State.statusWord, append_toNat, BitVec.toNat_ofBool, BitVec.toNat_ofNat]
  omega

/-- STATUS.ERR is 1 exactly when ERRCODE is not 0 (10_state.md R27). -/
theorem State.err_iff (s : State) : s.err = true ↔ s.errcode.toNat ≠ 0 := by
  simp [State.err, ← BitVec.toNat_inj]

/-- The four flags of STATUS, bits 3 to 0 (10_state.md R27). -/
theorem State.statusWord_flags (s : State) :
    s.statusWord.getLsbD 0 = s.busy ∧ s.statusWord.getLsbD 1 = s.done ∧
      s.statusWord.getLsbD 2 = s.err ∧ s.statusWord.getLsbD 3 = s.overrun := by
  simp only [State.statusWord, BitVec.getLsbD_append]
  simp

/-- The fields of STATUS wider than a bit, and its reserved bits (10_state.md R27). -/
theorem State.statusWord_fields (s : State) :
    s.statusWord.toNat / 2 ^ 4 % 4 = s.index.code.toNat ∧ s.statusWord.toNat / 2 ^ 8 % 16 = s.errcode.toNat ∧
      s.statusWord.toNat / 2 ^ 12 % 256 = s.errcause.toNat ∧
      s.statusWord.toNat / 2 ^ 6 % 4 = 0 ∧ s.statusWord.toNat / 2 ^ 20 = 0 := by
  have hsum := s.statusWord_toNat
  have := s.errcause.isLt; have := s.errcode.isLt; have := s.index.code.isLt
  have := s.overrun.toNat_le; have := s.err.toNat_le; have := s.done.toNat_le; have := s.busy.toNat_le
  omega

/-- Settles O39: the flags bit by bit; STATE, ERRCODE and the reserved bits from the sum of the fields. -/
theorem statusWordFields : Obligations.StatusWordFields := by
  intro s
  obtain ⟨hbusy, hdone, herr, hoverrun⟩ := s.statusWord_flags
  obtain ⟨hstate, herrcode, -, hlow, hhigh⟩ := s.statusWord_fields
  refine ⟨hbusy, hdone, ?_, hoverrun, ?_, hlow, hhigh⟩
  · rw [herr, s.err_iff, herrcode]
  · rw [hstate]
    cases s.index <;> rfl

/-- CTRL reads as IE and zeros (10_state.md R30). -/
theorem State.ctrlWord_toNat (s : State) : s.ctrlWord.toNat = s.ie.toNat := by
  simp only [State.ctrlWord, append_toNat, BitVec.toNat_ofBool, BitVec.toNat_ofNat]
  omega

/-- CTRL reads 0 while reset is asserted (10_state.md R30, R42). -/
theorem State.ctrlWord_assertReset (s : State) : s.assertReset.ctrlWord = 0#32 :=
  BitVec.eq_of_toNat_eq (State.ctrlWord_toNat _)

theorem State.ctrlWord_resetFor (p : Params) : (State.resetFor p).ctrlWord = 0#32 :=
  BitVec.eq_of_toNat_eq (State.ctrlWord_toNat _)

theorem State.statusWord_resetFor (p : Params) : (State.resetFor p).statusWord = 0#32 :=
  BitVec.eq_of_toNat_eq (by
    rw [State.statusWord_toNat]
    simp [State.errcause, State.errcode, State.err, IndexState.code])

end Sys2Proof.Machine

/-! ### Proofs: the state (10_state.md): host accesses -/

namespace Sys2Proof.Machine

theorem HostReg.offset_lt (r : HostReg) : r.offset < 0x100 := by cases r <;> decide

theorem HostReg.offset_mod_four (r : HostReg) : r.offset % 4 = 0 := by cases r <;> rfl

/-- A host read of a whole register or a reserved offset, outside reset, as a step (20_memory.md R66). -/
theorem step_hostRead {s : State} {off : Nat} {rest : List Turn} (hr : s.inReset = false)
    (hs : s.schedule = Spec.hostAt s off .read :: rest) (hoff : off < 0x100) (hal : off % 4 = 0) :
    step s = .next ((s.afterTurn rest).deliver ((s.afterTurn rest).readOffset off)) :=
  (step_cons hs).trans ((s.afterTurn rest).hostAccess_at hoff hal hr .read)

/-- A host write at an aligned offset, outside reset, as a step (20_memory.md R66). -/
theorem step_hostWrite {s : State} {off : Nat} {v : Word} {rest : List Turn} (hr : s.inReset = false)
    (hs : s.schedule = Spec.hostAt s off (.write v) :: rest) (hoff : off < 0x100) (hal : off % 4 = 0) :
    step s = .next ((s.afterTurn rest).writeOffset off v) :=
  (step_cons hs).trans ((s.afterTurn rest).hostAccess_at hoff hal hr (.write v))

/-- A host write neither reads nor changes the turns to come. -/
theorem State.writeReg_afterTurn (s : State) (rest : List Turn) (r : HostReg) (v : Word) :
    (s.afterTurn rest).writeReg r v = (s.writeReg r v).afterTurn rest := by
  cases r <;> cases hb : s.busy <;> simp [State.writeReg, hb] <;> rfl

/-- A host write to a register, outside reset, as a step (20_memory.md R66). -/
theorem step_hostWrite_reg {s : State} {v : Word} {rest : List Turn} (r : HostReg) (hr : s.inReset = false)
    (hs : s.schedule = Spec.hostAt s r.offset (.write v) :: rest) :
    step s = .next ((s.writeReg r v).afterTurn rest) := by
  rw [step_hostWrite hr hs r.offset_lt r.offset_mod_four, State.writeOffset_offset, State.writeReg_afterTurn]

/-- The register map lists each register at its offset (10_state.md R22). -/
theorem registerMap_eq (s : State) : Spec.registerMap s = hostRegs.map fun r => (r.offset, s.readReg r) := rfl

/-- No register is the turns to come. -/
@[simp] theorem State.readReg_afterTurn (s : State) (rest : List Turn) (r : HostReg) :
    (s.afterTurn rest).readReg r = s.readReg r := by cases r <;> rfl

/-- Settles O41: the value at a listed offset is the register's; a reserved offset holds none. -/
theorem hostReadReturnsRegisterWithoutSideEffect : Obligations.HostReadReturnsRegisterWithoutSideEffect := by
  intro s off rest hr hs
  constructor
  · intro v hv
    rw [registerMap_eq, List.mem_map] at hv
    obtain ⟨r, -, hreg⟩ := hv
    obtain ⟨rfl, rfl⟩ := Prod.mk.inj hreg
    rw [step_hostRead hr hs r.offset_lt r.offset_mod_four, State.readOffset_offset, State.readReg_afterTurn]
    rfl
  · intro hge hle hal
    have hzero : (s.afterTurn rest).readOffset off = 0#32 := by rw [State.readOffset, regAtOffset_of_ge hge]
    rw [step_hostRead hr hs (by omega) hal, hzero]
    rfl

/-- The read-only registers and the reserved offsets ignore a write (10_state.md R29 to R35). -/
theorem State.writeOffset_of_not_writable (s : State) {off : Nat} (h : off = 0x14 ∨ 0x20 ≤ off) (v : Word) :
    s.writeOffset off v = s := by
  rcases s.writeOffset_cases off v with ⟨r, rfl, e⟩ | ⟨-, e⟩
  · rw [e]
    cases r with
    | cmd | opa | opb | lbscfg | sbscfg | status | ctrl => simp [HostReg.offset] at h
    | result | lenbytes | nbits | lbs | sbs | id | maxbytes | lbcap | sbcap => rfl
  · exact e

/-- Settles O43: the access is a defined one, and the write at its offset does nothing. -/
theorem readOnlyAndReservedOffsetsIgnoreWrites : Obligations.ReadOnlyAndReservedOffsetsIgnoreWrites := by
  intro s off v rest hr hs hoff
  rw [step_hostWrite hr hs (by omega) (by omega), State.writeOffset_of_not_writable _ (by omega)]
  rfl

/-- Settles O42: an access none of whose bytes is in the window does not touch it. -/
theorem accessOutsideWindowDoesNotReachBlock : Obligations.AccessOutsideWindowDoesNotReachBlock := by
  intro s a rest hs hout
  have hw : ¬ a.InWindow s.params := by
    rw [HostAccess.inWindow_iff]
    rintro ⟨x, hlo, hhi, hbase, htop⟩
    have := hout x hlo hhi
    omega
  calc step s = (s.afterTurn rest).hostAccess a := step_cons hs
    _ = .next (s.afterTurn rest) := if_pos hw

/-- Settles O44: while idle the operand registers take the value written. -/
theorem operandWriteStoresWhileIdle : Obligations.OperandWriteStoresWhileIdle := by
  intro s off v rest hr hb hs
  have hidle : ¬ s.busy = true := by simp [hb]
  refine ⟨?_, ?_, ?_, ?_⟩ <;> rintro rfl
  · rw [step_hostWrite_reg .opa hr hs, State.writeReg, if_neg hidle]
    rfl
  · rw [step_hostWrite_reg .opb hr hs, State.writeReg, if_neg hidle]
    rfl
  · rw [step_hostWrite_reg .lbscfg hr hs, State.writeReg, if_neg hidle]
    rfl
  · rw [step_hostWrite_reg .sbscfg hr hs, State.writeReg, if_neg hidle]
    rfl

/-- A bit of a word is a binary digit of its value. -/
theorem getLsbD_eq_beq (v : Word) (i : Nat) : v.getLsbD i = (v.toNat / 2 ^ i % 2 == 1) :=
  Nat.testBit_eq_decide_div_mod_eq.trans (beq_eq_decide ..).symm

/-- A flag that a written 1 clears. -/
theorem and_not_beq_one (b : Bool) (n : Nat) : (b && !(n == 1)) = if n = 1 then false else b := by
  split <;> simp_all

/-- Settles O47: a write to STATUS clears DONE and OVERRUN by digits 1 and 3 of the value, busy or not. -/
theorem statusWriteClearsFlags : Obligations.StatusWriteClearsFlags := by
  intro s v rest hr hs
  have hone : s.writeReg .status v = s.statusWrite v := rfl
  rw [step_hostWrite_reg .status hr hs, hone, State.statusWrite]
  simp only [getLsbD_eq_beq, and_not_beq_one]
  rfl

/-- Settles O48: a write to CTRL is `ctrlWrite`, busy or not; commands leave the host's registers alone. -/
theorem controlRegister : Obligations.ControlRegister := by
  refine ⟨fun s v rest hr hs => ?_, State.ctrlWord_toNat, fun i s t hx => ?_, fun s rest hs => ?_⟩
  · have hie : s.writeReg .ctrl v = { s with ie := v.toNat % 2 == 1 } := by
      rw [State.writeReg, State.ctrlWrite, getLsbD_eq_beq, pow_zero, Nat.div_one]
    rw [step_hostWrite_reg .ctrl hr hs, hie]
    rfl
  · obtain ⟨-, -, hhost⟩ := exec_done_busy_sameHost hx
    exact hhost.ie
  · exact ⟨(s.afterTurn rest).assertReset, step_cons hs, rfl, State.ctrlWord_assertReset _⟩

/-- Settles O50: a completion sets DONE and keeps IE; acceptance, and a STATUS write with bit 1 set, clear DONE. -/
theorem interruptFollowsCompletion : Obligations.InterruptFollowsCompletion := by
  refine ⟨fun s => ?_, fun i s t hx => ?_, fun s v rest hr h => ?_⟩
  · rw [State.irq, Bool.and_eq_true]
  · obtain ⟨hdone, -, hhost⟩ := exec_done_busy_sameHost hx
    rw [State.irq, hdone, hhost.ie, Bool.and_true]
  · rcases h with ⟨hb, hs⟩ | ⟨hv, hs⟩
    · refine ⟨_, step_hostWrite_reg .cmd hr hs, ?_⟩
      simp [State.irq, State.writeReg, hb]
    · refine ⟨_, step_hostWrite_reg .status hr hs, ?_⟩
      simp [State.irq, State.writeReg, hv]

/-- Settles O52: the registers, the vector RAM, the tables and IRQ, each evaluated on the state after reset. -/
theorem resetValues : Obligations.ResetValues := by
  refine ⟨fun p => ?_, fun p a => Memory.read_nil a, fun p => ⟨rfl, rfl, rfl⟩, Config.exampleParams, rfl⟩
  rw [Spec.registerMap, State.statusWord_resetFor, State.ctrlWord_resetFor]
  rfl

end Sys2Proof.Machine

/-! ### Proofs: the memory (20_memory.md): bit order, and the bytes beyond the bit-vector -/

namespace Sys2Proof.Machine

/-- Settles O24: byte and bit number of position 8a + k are the quotient and the rest of its division by 8. -/
theorem bitOrderIsMostSignificantFirst : Obligations.BitOrderIsMostSignificantFirst := by
  intro s a k hk
  have hbyte : (8 * a + k) / 8 = a := by omega
  have hbit : 7 - (8 * a + k) % 8 = 8 - 1 - k := by omega
  rw [State.bit, hbyte, hbit, BitVec.getMsbD, decide_eq_true hk, Bool.true_and]

/-- The block with another vector RAM. -/
def State.withRam (m : Memory) (s : State) : State := { s with ram := m }

@[simp] theorem State.withRam_index (s : State) (m : Memory) : (s.withRam m).index = s.index := rfl
@[simp] theorem State.withRam_opa (s : State) (m : Memory) : (s.withRam m).opa = s.opa := rfl
@[simp] theorem State.withRam_opb (s : State) (m : Memory) : (s.withRam m).opb = s.opb := rfl
@[simp] theorem State.withRam_nbits (s : State) (m : Memory) : (s.withRam m).nbits = s.nbits := rfl

@[simp] theorem State.withRam_complete (s : State) (m : Memory) (v : Word) :
    (s.withRam m).complete v = (s.complete v).withRam m := rfl

@[simp] theorem State.withRam_raiseError (s : State) (m : Memory) (c : ErrorCause) :
    (s.withRam m).raiseError c = (s.raiseError c).withRam m := rfl

section
variable {s : State} {m : Memory} (hN : s.nbits.toNat = 8 * s.lenbytes.toNat)
  (hm : ∀ a, a < s.lenbytes.toNat → m.read a = s.ram.read a)
include hN hm

/-- A count of positions below N reads the L bytes of the bit-vector alone. -/
theorem State.count_withRam (b : Bool) (lo : Nat) {hi : Nat} (hhi : hi ≤ s.nbits.toNat) :
    (s.withRam m).count b lo hi = s.count b lo hi :=
  State.count_congr b fun i _ hi => hm (i / 8) (by omega)

theorem State.total_withRam (b : Bool) : (s.withRam m).total b = s.count b 0 s.nbits.toNat :=
  ((s.withRam m).total_eq_count b).trans (State.count_withRam hN hm b 0 le_rfl)

/-- Only counts below N decide which position SELECT finds. -/
theorem State.selectPos_withRam (b : Bool) (n : Nat) : (s.withRam m).selectPos b n = s.selectPos b n := by
  have hpred : ∀ p ∈ List.range s.bitLen, ((s.withRam m).count b 0 (p + 1) == n) = (s.count b 0 (p + 1) == n) := by
    intro p hp
    rw [State.count_withRam hN hm b 0 (List.mem_range.1 hp)]
  exact le_antisymm (List.findIdx_le_findIdx fun p hp h => (hpred p hp).trans h)
    (List.findIdx_le_findIdx fun p hp h => (hpred p hp).symm.trans h)

/-- A block boundary of a table entry is not beyond N, whatever the block size `d`. -/
theorem State.count_withRam_boundary (b : Bool) (lo d : Nat) {k : Nat} (hk : k ∈ List.range (s.bitLen / d + 1)) :
    (s.withRam m).count b lo (k * d) = s.count b lo (k * d) :=
  State.count_withRam hN hm b lo (Nat.mul_le_of_le_div _ _ _ (Nat.le_of_lt_succ (List.mem_range.1 hk)))

/-- Both tables hold counts up to block boundaries. -/
theorem State.fillTables_withRam : (s.withRam m).fillTables = s.fillTables.withRam m :=
  congrArg₂ (fun lb sb => { s with ram := m, lb := lb, sb := sb, index := .built })
    (List.map_congr_left fun _ hk => congrArg toWord (State.count_withRam_boundary hN hm true 0 s.lbs.toNat hk))
    (List.map_congr_left fun _ hj => congrArg toWord (State.count_withRam_boundary hN hm true _ s.sbs.toNat hj))

theorem execBuild_withRam {t : State} (hx : exec .build s = .next t) :
    exec .build (s.withRam m) = .next (t.withRam m) := by
  have hones : (s.withRam m).ones 0 s.nbits.toNat = s.ones 0 s.nbits.toNat := State.count_withRam hN hm true 0 le_rfl
  rcases execBuild_cases s with ⟨hi, e⟩ | ⟨hi, e⟩ <;> cases hx.symm.trans e
  · simp [exec, execBuild, hi]
  · simp [exec, execBuild, hi, State.bitLen, State.fillTables_withRam hN hm, hones]

theorem execRank_withRam {t : State} (hx : exec .rank s = .next t) :
    exec .rank (s.withRam m) = .next (t.withRam m) := by
  rcases execRank_cases s with ⟨hi, e⟩ | ⟨hi, hb, e⟩ | ⟨b, hi, hb, ha, e⟩ | ⟨b, hi, hb, ha, e⟩ <;>
    cases hx.symm.trans e
  · simp [exec, execRank, hi]
  · simp [exec, execRank, hi, bitOperand_of_gt hb]
  · simp [exec, execRank, hi, bitOperand_of_eq hb, State.bitLen, ha]
  · simp [exec, execRank, hi, bitOperand_of_eq hb, State.bitLen, Nat.not_lt.2 ha, State.rank_eq_count,
      State.count_withRam hN hm b 0 ha]

theorem execSelect_withRam {t : State} (hx : exec .select s = .next t) :
    exec .select (s.withRam m) = .next (t.withRam m) := by
  have htotal := State.total_withRam hN hm
  have hzero : s.opa = 0#32 ↔ s.opa.toNat = 0 := by simp [← BitVec.toNat_inj]
  rcases execSelect_cases s with ⟨hi, e⟩ | ⟨hi, hb, e⟩ | ⟨b, hi, hb, ha, e⟩ | ⟨b, hi, hb, ha, ha', e⟩ <;>
    cases hx.symm.trans e
  · simp [exec, execSelect, hi]
  · simp [exec, execSelect, hi, bitOperand_of_gt hb]
  · simp [exec, execSelect, hi, bitOperand_of_eq hb, htotal, hzero, ha]
  · have hpassed : ¬ (s.opa.toNat = 0 ∨ s.count b 0 s.nbits.toNat < s.opa.toNat) := by omega
    simp [exec, execSelect, hi, bitOperand_of_eq hb, htotal, hzero, hpassed, State.selectPos_withRam hN hm]

end

/-- Settles O25: what BUILD, RANK and SELECT make of the vector RAM are counts of positions below N. -/
theorem bytesBeyondLengthDoNotCount : Obligations.BytesBeyondLengthDoNotCount := by
  rintro s t m i (rfl | rfl | rfl) hN hm hx
  · exact execBuild_withRam hN hm hx
  · exact execRank_withRam hN hm hx
  · exact execSelect_withRam hN hm hx

end Sys2Proof.Machine

/-! ### Proofs: the memory (20_memory.md): what a step refuses -/

namespace Sys2Proof.Machine

/-- When a host access is refused (20_memory.md R64, 70_reset_and_hazards.md R240). -/
theorem State.hostAccess_eq_refused_iff (s : State) (a : HostAccess) (r : Refusal) :
    s.hostAccess a = .refused r ↔ a.InWindow s.params ∧
      ((s.inReset = true ∧ r = .hostAccessDuringReset) ∨
       (s.inReset = false ∧ ¬ a.WF s.params ∧ r = .undefinedHostAccess)) := by
  rcases s.hostAccess_cases a with ⟨hw, e⟩ | ⟨hw, hr, e⟩ | ⟨hw, hr, hf, e⟩ | ⟨hw, hr, hf, -, e⟩ | ⟨v, hw, hr, hf, -, e⟩
  · simp [e, hw]
  · simpa [e, hr, eq_comm] using fun _ => hw
  · simpa [e, hr, hf, eq_comm] using fun _ => hw
  · simp [e, hr, hf]
  · simp [e, hr, hf]

/-- The engine's turn always answers a next state (60_exceptions.md R200). -/
theorem State.engineTurn_answers (s : State) : ∃ t, s.engineTurn = .next t := by
  rcases s.engineTurn_completes with ⟨-, h⟩ | ⟨-, c, h⟩ | ⟨-, i, v, -, h⟩ <;> exact ⟨_, h⟩

/-- Only a host access is refused. -/
theorem step_eq_refused_iff (s : State) (r : Refusal) :
    step s = .refused r ↔
      ∃ a rest, s.schedule = .host a :: rest ∧ (s.afterTurn rest).hostAccess a = .refused r := by
  cases hs : s.schedule with
  | nil =>
    obtain ⟨t, ht⟩ := s.engineTurn_answers
    simp [step_nil hs, ht]
  | cons x rest =>
    rw [step_cons hs]
    cases x with
    | host a => simp [State.runTurn]
    | engine =>
      obtain ⟨t, ht⟩ := (s.afterTurn rest).engineTurn_answers
      simp [State.runTurn, ht]
    | resetAssert | resetDone => simp [State.runTurn]

/-- Settles O49: only host accesses are refused, by the window, the reset and the access's own form. -/
theorem onlyUndefinedHostAccessesAreRefused : Obligations.OnlyUndefinedHostAccessesAreRefused := by
  intro s r
  simp only [step_eq_refused_iff, State.hostAccess_eq_refused_iff, HostAccess.inWindow_iff, HostAccess.wf_iff,
    State.afterTurn_params, State.afterTurn_inReset]

end Sys2Proof.Machine

/-! ### Proofs: the memory (20_memory.md): runs of defined turns -/

namespace Sys2Proof.Machine

/-- A host write to a register leaves the device, reset and the turns to come alone. -/
theorem State.writeReg_environment (s : State) (r : HostReg) (v : Word) :
    (s.writeReg r v).params = s.params ∧ (s.writeReg r v).inReset = s.inReset ∧
      (s.writeReg r v).schedule = s.schedule := by
  rcases s.writeReg_cases r v with ⟨-, -, e⟩ | ⟨-, -, e⟩ | ⟨-, ⟨-, e⟩ | ⟨-, e⟩ | ⟨-, e⟩ | ⟨-, e⟩⟩ | ⟨-, e⟩ | ⟨-, e⟩ |
    ⟨-, e⟩ <;> rw [e] <;> exact ⟨rfl, rfl, rfl⟩

/-- A host access leaves the device, reset and the turns to come alone. -/
theorem State.hostAccess_environment {s t : State} {a : HostAccess} (h : s.hostAccess a = .next t) :
    t.params = s.params ∧ t.inReset = s.inReset ∧ t.schedule = s.schedule := by
  rcases s.hostAccess_cases a with ⟨-, e⟩ | ⟨-, -, e⟩ | ⟨-, -, -, e⟩ | ⟨-, -, -, -, e⟩ | ⟨v, -, -, -, -, e⟩ <;>
    cases h.symm.trans e
  · exact ⟨rfl, rfl, rfl⟩
  · exact ⟨rfl, rfl, rfl⟩
  · rcases s.writeOffset_cases (a.addr - s.params.baseAddr) v with ⟨r, -, hreg⟩ | ⟨-, hnone⟩
    · rw [hreg]
      exact s.writeReg_environment r v
    · rw [hnone]
      exact ⟨rfl, rfl, rfl⟩

/-- The engine's turn, a completion or idle, leaves the host's registers and what is outside the block alone. -/
theorem State.engineTurn_sameHost {s t : State} (h : s.engineTurn = .next t) : State.SameHost s t := by
  rcases s.engineTurn_cases with ⟨-, hidle⟩ | ⟨-, e, -, herr⟩ | ⟨-, i, -, hexec⟩
  · cases h.symm.trans hidle
    exact {}
  · cases h.symm.trans herr
    exact {}
  · obtain ⟨-, -, hhost⟩ := exec_done_busy_sameHost (hexec.symm.trans h)
    exact hhost

/-- A step takes one turn from the schedule and keeps the device's parameters. -/
theorem step_params_schedule {s t : State} (h : step s = .next t) :
    t.params = s.params ∧ t.schedule = s.schedule.tail := by
  rcases step_next_cases h with ⟨rest, hs, he⟩ | ⟨a, rest, hs, ha⟩ | ⟨rest, hs, rfl⟩ | ⟨rest, hs, rfl⟩
  · have htail : rest = s.schedule.tail := by rcases hs with ⟨hs, rfl⟩ | hs <;> rw [hs] <;> rfl
    have hhost := State.engineTurn_sameHost he
    exact ⟨hhost.params, hhost.schedule.trans htail⟩
  · obtain ⟨hp, -, hsched⟩ := State.hostAccess_environment ha
    exact ⟨hp, by rw [hsched, hs]; rfl⟩
  · exact ⟨rfl, by rw [hs]; rfl⟩
  · exact ⟨rfl, by rw [hs]; rfl⟩

/-- Only an asserted reset starts reset (70_reset_and_hazards.md R240). -/
theorem step_inReset_eq_false {s t : State} (h : step s = .next t) (hr : s.inReset = false)
    (hturn : Turn.resetAssert ∉ s.schedule) : t.inReset = false := by
  rcases step_next_cases h with ⟨rest, -, he⟩ | ⟨a, rest, -, ha⟩ | ⟨rest, hs, -⟩ | ⟨rest, -, rfl⟩
  · exact (State.engineTurn_sameHost he).inReset.trans hr
  · obtain ⟨-, hreset, -⟩ := State.hostAccess_environment ha
    exact hreset.trans hr
  · exact absurd (hs ▸ List.mem_cons_self) hturn
  · rfl

/-- What is not refused goes on: there is no fault (60_exceptions.md R200). -/
theorem step_answers_of_not_refused {s : State} (h : ∀ r, step s ≠ .refused r) : ∃ t, step s = .next t := by
  cases hs : step s with
  | next t => exact ⟨t, rfl⟩
  | fault r => cases r
  | refused r => exact absurd hs (h r)

/-- Outside reset the next turn is not refused if it is a defined one (20_memory.md R64). -/
theorem step_answers_of_defined {s : State} (hr : s.inReset = false) (hdef : ∀ t ∈ s.schedule, Turn.Defined s.params t) :
    ∃ t, step s = .next t := by
  refine step_answers_of_not_refused fun r h => ?_
  obtain ⟨a, rest, hs, hrefused⟩ := (step_eq_refused_iff s r).1 h
  obtain ⟨hw, ⟨hreset, -⟩ | ⟨-, hf, -⟩⟩ := (State.hostAccess_eq_refused_iff _ a r).1 hrefused
  · exact absurd (hreset.symm.trans hr) (by decide)
  · have hd : Turn.Defined s.params (.host a) := hdef _ (hs ▸ List.mem_cons_self)
    exact hf (hd hw)

theorem run_succ_of_next {s t : State} (h : step s = .next t) (n : Nat) :
    Host.Core.run Sys2Proof.core (n + 1) s = Host.Core.run Sys2Proof.core n t := by
  have hcore : Sys2Proof.core.step s = .next t := h
  simp only [Host.Core.run, hcore]

/-- Settles O58: a step of such a schedule answers a next state, from which the schedule's rest is again such a one. -/
theorem definedTurnsRunSafely : Obligations.DefinedTurnsRunSafely := by
  intro s n
  induction n generalizing s with
  | zero => exact fun _ _ => ⟨s, rfl⟩
  | succ n ih =>
    intro hr hturns
    obtain ⟨t, ht⟩ := step_answers_of_defined hr fun x hx => (hturns x hx).2
    obtain ⟨hp, hs⟩ := step_params_schedule ht
    have hreset := step_inReset_eq_false ht hr fun hmem => (hturns _ hmem).1 rfl
    obtain ⟨u, hu⟩ := ih t hreset fun x hx => by
      rw [hp]
      exact hturns x (List.mem_of_mem_tail (hs ▸ hx))
    exact ⟨u, (run_succ_of_next ht n).trans hu⟩

end Sys2Proof.Machine

/-! ### Proofs: the encoding (30_encoding.md): command words and the engine's turn -/

namespace Sys2Proof

/-- The word of a command has an assigned opcode and no reserved bit set (30_encoding.md R80, R83). -/
theorem encode_fields (i : Instr) :
    1 ≤ (encode i).toNat % 256 ∧ (encode i).toNat % 256 ≤ 0x0B ∧ (encode i).toNat / 256 = 0 := by
  have hval := encode_toNat i
  have hrange := opcodeOf_range i
  omega

/-- Decoding inverts encoding (30_encoding.md R83). -/
theorem decode_encode (i : Instr) : decode (encode i) = .ok i := by
  cases i <;> rfl

/-- A word names a command exactly when it is that command's word (30_encoding.md R81, R83). -/
theorem decode_eq_ok_iff (w : Word) (i : Instr) : decode w = .ok i ↔ w = encode i := by
  constructor
  · intro h
    rcases decode_cases w with ⟨hd, -⟩ | ⟨hd, -⟩ | ⟨j, hd, hw⟩ <;> cases h.symm.trans hd
    exact hw
  · rintro rfl
    exact decode_encode i

/-- The unassigned opcodes are 0x00 and those from 0x0C on (30_encoding.md R81, R83). -/
theorem decode_eq_unknownOpcode_iff (w : Word) :
    decode w = .error .unknownOpcode ↔ w.toNat % 256 = 0 ∨ 0x0C ≤ w.toNat % 256 := by
  rcases decode_cases w with ⟨hd, hop⟩ | ⟨hd, hlo, hhi, -⟩ | ⟨i, hd, rfl⟩
  · simp [hd, hop]
  · have hassigned : ¬ (w.toNat % 256 = 0 ∨ 0x0C ≤ w.toNat % 256) := by omega
    simp [hd, hassigned]
  · obtain ⟨hlo, hhi, -⟩ := encode_fields i
    have hassigned : ¬ ((encode i).toNat % 256 = 0 ∨ 0x0C ≤ (encode i).toNat % 256) := by omega
    simp [hd, hassigned]

/-- The reserved bits are at fault only under an assigned opcode (30_encoding.md R81). -/
theorem decode_eq_reservedBits_iff (w : Word) :
    decode w = .error .reservedBits ↔ 1 ≤ w.toNat % 256 ∧ w.toNat % 256 ≤ 0x0B ∧ w.toNat / 256 ≠ 0 := by
  rcases decode_cases w with ⟨hd, hop⟩ | ⟨hd, hfields⟩ | ⟨i, hd, rfl⟩
  · have hunassigned : ¬ (1 ≤ w.toNat % 256 ∧ w.toNat % 256 ≤ 0x0B) := by omega
    simp only [hd, ← and_assoc, hunassigned, false_and]
    simp
  · simp [hd, hfields]
  · obtain ⟨-, -, hzero⟩ := encode_fields i
    simp [hd, hzero]

/-- Settles O2: what `decode_cases` leaves open, that its three answers exclude each other, follows from the fields of
a command's word. -/
theorem decodeInvertsEncodeExactly : Obligations.DecodeInvertsEncodeExactly :=
  ⟨decode_eq_ok_iff, decode_eq_unknownOpcode_iff, decode_eq_reservedBits_iff⟩

/-- Settles O1: the eleven words are those of the commands, in the order of the opcode map. -/
theorem opcodeMapDecodes : Obligations.OpcodeMapDecodes :=
  ⟨decode_encode .popcnt8, decode_encode .popcnt32, decode_encode .wrbyte, decode_encode .rdbyte, decode_encode .clear,
    decode_encode .create, decode_encode .build, decode_encode .rank, decode_encode .select, decode_encode .rdlb,
    decode_encode .rdsb, fun w hop => (decode_eq_unknownOpcode_iff w).2 hop⟩

end Sys2Proof

namespace Sys2Proof.Machine

/-- A busy engine whose word names a command runs it (60_exceptions.md R206). -/
theorem State.engineTurn_of_ok {s : State} {i : Instr} (hb : s.busy = true) (hd : decode s.cmd = .ok i) :
    s.engineTurn = exec i s := by
  rw [State.engineTurn, if_pos hb, State.performCommand, hd]

/-- A busy engine whose word names no command completes with its cause (30_encoding.md R81, 60_exceptions.md R207). -/
theorem State.engineTurn_of_error {s : State} {e : DecodeError} (hb : s.busy = true) (hd : decode s.cmd = .error e) :
    s.engineTurn = .next (s.raiseError (causeOfDecodeError e)) := by
  rw [State.engineTurn, if_pos hb, State.performCommand, hd]

/-- Settles O3: with no turn left the step is the engine's on the state itself, with the engine's turn next on the state
without that turn; BUSY and CMD are the same in both. -/
theorem stepRunsDecodedCommand : Obligations.StepRunsDecodedCommand := by
  intro s i hb hd
  constructor
  · intro hs
    rw [step_nil hs, State.engineTurn_of_ok hb hd]
  · intro rest hs
    calc step s = (s.afterTurn rest).engineTurn := step_cons hs
      _ = exec i (s.afterTurn rest) := State.engineTurn_of_ok hb hd

/-- Settles O4: the fields of CMD say which of the three answers decoding gives, and the engine completes by it. -/
theorem illegalCommandWordsComplete : Obligations.IllegalCommandWordsComplete := by
  intro s rest hb hs
  have hstep : step s = (s.afterTurn rest).engineTurn := step_cons hs
  have hbusy : (s.afterTurn rest).busy = true := hb
  refine ⟨fun hop => ?_, fun hlo hhi hres => ?_, fun i hcmd => ?_⟩
  · have hd : decode (s.afterTurn rest).cmd = .error .unknownOpcode := (decode_eq_unknownOpcode_iff _).2 hop
    exact hstep.trans (State.engineTurn_of_error hbusy hd)
  · have hd : decode (s.afterTurn rest).cmd = .error .reservedBits := (decode_eq_reservedBits_iff _).2 ⟨hlo, hhi, hres⟩
    exact hstep.trans (State.engineTurn_of_error hbusy hd)
  · have hd : decode (s.afterTurn rest).cmd = .ok i := (decode_eq_ok_iff _ i).2 hcmd
    exact hstep.trans (State.engineTurn_of_ok hbusy hd)

end Sys2Proof.Machine

/-! ### Proofs: the encoding (30_encoding.md): what a busy block holds -/

namespace Sys2Proof.Machine

/-- After the engine's turn BUSY is 0: it was, or the turn was a completion (60_exceptions.md R206, R207). -/
theorem State.engineTurn_not_busy {s t : State} (h : s.engineTurn = .next t) : t.busy = false := by
  rcases s.engineTurn_completes with ⟨hb, e⟩ | ⟨-, c, e⟩ | ⟨-, i, v, -, e⟩ <;> cases h.symm.trans e
  · exact hb
  · rfl
  · rfl

/-- `t` is `s` but for OVERRUN, DONE, IE and what stands outside the block. -/
def State.HoldsWhileBusy (s t : State) : Prop :=
  t = { s with overrun := t.overrun, done := t.done, ie := t.ie,
               inReset := t.inReset, schedule := t.schedule, readLog := t.readLog }

/-- A host write to a busy block is dropped or goes to STATUS or CTRL (20_memory.md R66, 60_exceptions.md R212). -/
theorem State.writeReg_holdsWhileBusy {s : State} (hb : s.busy = true) (r : HostReg) (v : Word) :
    State.HoldsWhileBusy s (s.writeReg r v) := by
  rcases s.writeReg_cases r v with ⟨-, -, e⟩ | ⟨hidle, -⟩ | ⟨hidle, -⟩ | ⟨-, e⟩ | ⟨-, e⟩ | ⟨-, e⟩
  · rw [e]; rfl
  · exact absurd hb (by simp [hidle])
  · exact absurd hb (by simp [hidle])
  · rw [e]; rfl
  · rw [e]; rfl
  · rw [e]; rfl

/-- A host access to a busy block leaves CMD, the operands and every result alone (30_encoding.md R85). -/
theorem State.hostAccess_holdsWhileBusy {s t : State} {a : HostAccess} (hb : s.busy = true)
    (h : s.hostAccess a = .next t) : State.HoldsWhileBusy s t := by
  rcases s.hostAccess_cases a with ⟨-, e⟩ | ⟨-, -, e⟩ | ⟨-, -, -, e⟩ | ⟨-, -, -, -, e⟩ | ⟨v, -, -, -, -, e⟩ <;>
    cases h.symm.trans e
  · rfl
  · rfl
  · rcases s.writeOffset_cases (a.addr - s.params.baseAddr) v with ⟨r, -, hreg⟩ | ⟨-, hnone⟩
    · rw [hreg]
      exact State.writeReg_holdsWhileBusy hb r v
    · rw [hnone]
      rfl

/-- Settles O51: the engine's turn and an asserted reset end with BUSY 0; what else a turn can be is a host access or the
end of reset, which leave the rest of a busy block alone. -/
theorem busyBlockHoldsOperandsAndOldState : Obligations.BusyBlockHoldsOperandsAndOldState := by
  intro s t hb h htb
  rcases step_next_cases h with ⟨rest, -, he⟩ | ⟨a, rest, -, ha⟩ | ⟨rest, -, rfl⟩ | ⟨rest, -, rfl⟩
  · exact absurd htb (by simp [State.engineTurn_not_busy he])
  · have hhold : State.HoldsWhileBusy (s.afterTurn rest) t := State.hostAccess_holdsWhileBusy hb ha
    exact hhold
  · simp at htb
  · rfl

end Sys2Proof.Machine

/-! ### Proofs: the encoding (30_encoding.md): what a command reads -/

namespace Sys2Proof.Machine

/-- Command `i` completes in `t` as it does in `s`: with the same error, or over its change with the same result. -/
def CompletesAlike (i : Instr) (s t : State) : Prop :=
  (∃ c, exec i s = .next (s.raiseError c) ∧ exec i t = .next (t.raiseError c)) ∨
  (∃ v, exec i s = .next ((commandChange i s).complete v) ∧ exec i t = .next ((commandChange i t).complete v))

theorem CompletesAlike.error {i : Instr} {s t : State} (c : ErrorCause) (hs : exec i s = .next (s.raiseError c))
    (ht : exec i t = .next (t.raiseError c)) : CompletesAlike i s t := .inl ⟨c, hs, ht⟩

theorem CompletesAlike.success {i : Instr} {s t : State} (v : Word)
    (hs : exec i s = .next ((commandChange i s).complete v))
    (ht : exec i t = .next ((commandChange i t).complete v)) : CompletesAlike i s t := .inr ⟨v, hs, ht⟩

/-- SELECT's position is found by counts, which read the vector RAM alone. -/
theorem State.selectPos_of_ram_eq {s t : State} (hram : t.ram = s.ram) (hnbits : t.nbits = s.nbits) (b : Bool) (n : Nat) :
    t.selectPos b n = s.selectPos b n := by
  simp only [State.selectPos, State.bitLen, hnbits, State.count_of_ram_eq hram]

/-- BUILD fills the tables from the index and the vector RAM alone. -/
theorem State.SameIndex.fillTables_eq {s t : State} (h : State.SameIndex s t) :
    t.fillTables = { t with lb := s.fillTables.lb, sb := s.fillTables.sb, index := .built } := by
  simp only [State.fillTables, State.lastLb, State.lastSb, State.bitLen, State.lbSnapshot, State.sbSnapshot,
    State.blockRatio, State.ones, State.count_of_ram_eq h.ram, h.nbits, h.lbs, h.sbs]

section
variable {s t : State}

theorem execPopcnt8_alike (hopa : t.opa = s.opa) : CompletesAlike .popcnt8 s t := by
  rcases execPopcnt8_cases s with ⟨hv, e⟩ | ⟨hv, e⟩
  · exact .error _ e (by simp [exec, execPopcnt8, hopa, byteOperand_of_gt hv])
  · exact .success _ e (by simp [exec, execPopcnt8, hopa, byteOperand_of_le hv, commandChange])

theorem execPopcnt32_alike (hopa : t.opa = s.opa) : CompletesAlike .popcnt32 s t :=
  .success _ (execPopcnt32_eq s) (hopa ▸ execPopcnt32_eq t)

theorem execClear_alike : CompletesAlike .clear s t :=
  .success _ (execClear_eq s) (execClear_eq t)

variable (h : State.SameIndex s t)
include h

theorem execWrbyte_alike (hopa : t.opa = s.opa) (hopb : t.opb = s.opb) : CompletesAlike .wrbyte s t := by
  rcases execWrbyte_cases s with ⟨hi, e⟩ | ⟨hi, hv, e⟩ | ⟨hi, hv, ha, e⟩ | ⟨hi, hv, ha, e⟩
  · exact .error _ e (by simp [exec, execWrbyte, h.index, hi])
  · exact .error _ e (by simp [exec, execWrbyte, h.index, hi, hopb, byteOperand_of_gt hv])
  · have hout : byteAddressOperand t s.opa = none := byteAddressOperand_of_ge (h.params ▸ ha)
    exact .error _ e (by simp [exec, execWrbyte, h.index, hi, hopb, byteOperand_of_le hv, hopa, hout])
  · have hin : byteAddressOperand t s.opa = some s.opa.toNat := byteAddressOperand_of_lt (h.params ▸ ha)
    exact .success _ e (by simp [exec, execWrbyte, h.index, hi, hopb, byteOperand_of_le hv, hopa, hin, commandChange])

theorem execRdbyte_alike (hopa : t.opa = s.opa) : CompletesAlike .rdbyte s t := by
  have hbyte : ∀ a, t.readByte a = s.readByte a := fun a => congrArg (Memory.read · a) h.ram
  rcases execRdbyte_cases s with ⟨ha, e⟩ | ⟨ha, e⟩
  · have hout : byteAddressOperand t s.opa = none := byteAddressOperand_of_ge (h.params ▸ ha)
    exact .error _ e (by simp [exec, execRdbyte, hopa, hout])
  · have hin : byteAddressOperand t s.opa = some s.opa.toNat := byteAddressOperand_of_lt (h.params ▸ ha)
    exact .success _ e (by simp [exec, execRdbyte, hopa, hin, hbyte, commandChange])

theorem execCreate_alike (hopa : t.opa = s.opa) (hlbscfg : t.lbscfg = s.lbscfg) (hsbscfg : t.sbscfg = s.sbscfg) :
    CompletesAlike .create s t := by
  have hcases := execCreate_cases s
  rw [← blockSizesValid_iff, ← tablesFit_iff] at hcases
  rcases hcases with ⟨hv, e⟩ | ⟨hv, ha, e⟩ | ⟨hv, ha, hf, e⟩ | ⟨hv, ha, hf, e⟩
  · exact .error _ e (by simp [exec, execCreate, hlbscfg, hsbscfg, hv])
  · exact .error _ e (by simp [exec, execCreate, hlbscfg, hsbscfg, hv, h.params, hopa, ha])
  · exact .error _ e (by simp [exec, execCreate, hlbscfg, hsbscfg, hv, h.params, hopa, Nat.not_lt.2 ha, hf])
  · exact .success _ e (by
      simp [exec, execCreate, hlbscfg, hsbscfg, hv, h.params, hopa, Nat.not_lt.2 ha, hf, commandChange])

theorem execBuild_alike : CompletesAlike .build s t := by
  have hones : t.ones 0 s.nbits.toNat = s.ones 0 s.nbits.toNat := State.count_of_ram_eq h.ram true 0 _
  rcases execBuild_cases s with ⟨hi, e⟩ | ⟨hi, e⟩
  · exact .error _ e (by simp [exec, execBuild, h.index, hi])
  · exact .success _ e (by simp [exec, execBuild, h.index, hi, State.bitLen, h.nbits, hones, commandChange])

theorem execRank_alike (hopa : t.opa = s.opa) (hopb : t.opb = s.opb) : CompletesAlike .rank s t := by
  rcases execRank_cases s with ⟨hi, e⟩ | ⟨hi, hb, e⟩ | ⟨b, hi, hb, ha, e⟩ | ⟨b, hi, hb, ha, e⟩
  · exact .error _ e (by simp [exec, execRank, h.index, hi])
  · exact .error _ e (by simp [exec, execRank, h.index, hi, hopb, bitOperand_of_gt hb])
  · exact .error _ e (by
      simp [exec, execRank, h.index, hi, hopb, bitOperand_of_eq hb, State.bitLen, h.nbits, hopa, ha])
  · exact .success _ e (by
      simp [exec, execRank, h.index, hi, hopb, bitOperand_of_eq hb, State.bitLen, h.nbits, hopa, Nat.not_lt.2 ha,
        State.rank_eq_count, State.count_of_ram_eq h.ram, commandChange])

theorem execSelect_alike (hopa : t.opa = s.opa) (hopb : t.opb = s.opb) : CompletesAlike .select s t := by
  have htotal : ∀ b, t.total b = s.count b 0 s.nbits.toNat := fun b => by
    rw [State.total_eq_count, h.nbits, State.count_of_ram_eq h.ram]
  have hzero : s.opa = 0#32 ↔ s.opa.toNat = 0 := by simp [← BitVec.toNat_inj]
  rcases execSelect_cases s with ⟨hi, e⟩ | ⟨hi, hb, e⟩ | ⟨b, hi, hb, ha, e⟩ | ⟨b, hi, hb, ha, ha', e⟩
  · exact .error _ e (by simp [exec, execSelect, h.index, hi])
  · exact .error _ e (by simp [exec, execSelect, h.index, hi, hopb, bitOperand_of_gt hb])
  · exact .error _ e (by simp [exec, execSelect, h.index, hi, hopb, bitOperand_of_eq hb, htotal, hopa, hzero, ha])
  · have hpassed : ¬ (s.opa.toNat = 0 ∨ s.count b 0 s.nbits.toNat < s.opa.toNat) := by omega
    exact .success _ e (by
      simp [exec, execSelect, h.index, hi, hopb, bitOperand_of_eq hb, htotal, hopa, hzero, hpassed,
        State.selectPos_of_ram_eq h.ram h.nbits, commandChange])

theorem execRdlb_alike (hopa : t.opa = s.opa) : CompletesAlike .rdlb s t := by
  have hlast : t.lastLb = s.nbits.toNat / s.lbs.toNat := by rw [State.lastLb, State.bitLen, h.nbits, h.lbs]
  rcases execRdlb_cases s with ⟨hi, e⟩ | ⟨hi, ha, e⟩ | ⟨hi, ha, e⟩
  · exact .error _ e (by simp [exec, execRdlb, h.index, hi])
  · exact .error _ e (by simp [exec, execRdlb, h.index, hi, hlast, hopa, ha])
  · exact .success _ e (by
      simp [exec, execRdlb, h.index, hi, hlast, hopa, Nat.not_lt.2 ha, State.lbEntry, h.lb, commandChange])

theorem execRdsb_alike (hopa : t.opa = s.opa) : CompletesAlike .rdsb s t := by
  have hlast : t.lastSb = s.nbits.toNat / s.sbs.toNat := by rw [State.lastSb, State.bitLen, h.nbits, h.sbs]
  rcases execRdsb_cases s with ⟨hi, e⟩ | ⟨hi, ha, e⟩ | ⟨hi, ha, e⟩
  · exact .error _ e (by simp [exec, execRdsb, h.index, hi])
  · exact .error _ e (by simp [exec, execRdsb, h.index, hi, hlast, hopa, ha])
  · exact .success _ e (by
      simp [exec, execRdsb, h.index, hi, hlast, hopa, Nat.not_lt.2 ha, State.sbEntry, h.sb, commandChange])

end

/-- `t` has what command `i` reads as `s` has it: the device, the vector RAM and the index, and the operand registers
that 30_encoding.md R84 gives the command. An update of other fields has it by the defaults. -/
structure State.SameReads (i : Instr) (s t : State) : Prop extends State.SameIndex s t where
  opa : i ≠ .clear → i ≠ .build → t.opa = s.opa := by intros; rfl
  opb : i = .wrbyte ∨ i = .rank ∨ i = .select → t.opb = s.opb := by intros; rfl
  lbscfg : i = .create → t.lbscfg = s.lbscfg := by intros; rfl
  sbscfg : i = .create → t.sbscfg = s.sbscfg := by intros; rfl

/-- A command does not depend on what it does not read (30_encoding.md R84). -/
theorem State.SameReads.completesAlike {i : Instr} {s t : State} (h : State.SameReads i s t) : CompletesAlike i s t := by
  obtain ⟨hindex, hopa, hopb, hlbscfg, hsbscfg⟩ := h
  cases i with
  | popcnt8 => exact execPopcnt8_alike (hopa (by decide) (by decide))
  | popcnt32 => exact execPopcnt32_alike (hopa (by decide) (by decide))
  | wrbyte => exact execWrbyte_alike hindex (hopa (by decide) (by decide)) (hopb (by decide))
  | rdbyte => exact execRdbyte_alike hindex (hopa (by decide) (by decide))
  | clear => exact execClear_alike
  | create => exact execCreate_alike hindex (hopa (by decide) (by decide)) (hlbscfg rfl) (hsbscfg rfl)
  | build => exact execBuild_alike hindex
  | rank => exact execRank_alike hindex (hopa (by decide) (by decide)) (hopb (by decide))
  | select => exact execSelect_alike hindex (hopa (by decide) (by decide)) (hopb (by decide))
  | rdlb => exact execRdlb_alike hindex (hopa (by decide) (by decide))
  | rdsb => exact execRdsb_alike hindex (hopa (by decide) (by decide))

/-- An update `f` of what a command does not read goes through the command, if it goes through its completions. -/
theorem State.SameReads.exec_update {i : Instr} {s t : State} {f : State → State} (h : State.SameReads i s (f s))
    (herror : ∀ c, (f s).raiseError c = f (s.raiseError c))
    (hsuccess : ∀ v, (commandChange i (f s)).complete v = f ((commandChange i s).complete v))
    (hx : exec i s = .next t) : exec i (f s) = .next (f t) := by
  rcases h.completesAlike with ⟨c, hs, ht⟩ | ⟨v, hs, ht⟩ <;> cases hx.symm.trans hs
  · rw [ht, herror]
  · rw [ht, hsuccess]

/-- Settles O38: each register stands apart from what the command reads, and from the change it makes. -/
theorem commandsIgnoreUnreadOperands : Obligations.CommandsIgnoreUnreadOperands := by
  intro i s t hx
  refine ⟨fun hwrbyte hrank hselect v => ?_, fun hcreate v w => ?_, fun hi v => ?_⟩
  · have hread : State.SameReads i s { s with opb := v } :=
      { opb := fun hi => by rcases hi with hi | hi | hi <;> contradiction }
    refine hread.exec_update (f := fun u => { u with opb := v }) (fun _ => rfl) (fun _ => ?_) hx
    cases i with
    | wrbyte => exact absurd rfl hwrbyte
    | build => exact congrArg (State.complete _) hread.fillTables_eq
    | popcnt8 | popcnt32 | rdbyte | clear | create | rank | select | rdlb | rdsb => rfl
  · have hread : State.SameReads i s { s with lbscfg := v, sbscfg := w } :=
      { lbscfg := fun hi => absurd hi hcreate, sbscfg := fun hi => absurd hi hcreate }
    refine hread.exec_update (f := fun u => { u with lbscfg := v, sbscfg := w }) (fun _ => rfl) (fun _ => ?_) hx
    cases i with
    | create => exact absurd rfl hcreate
    | build => exact congrArg (State.complete _) hread.fillTables_eq
    | popcnt8 | popcnt32 | wrbyte | rdbyte | clear | rank | select | rdlb | rdsb => rfl
  · have hread : State.SameReads i s { s with opa := v } :=
      { opa := fun hclear hbuild => by rcases hi with hi | hi <;> contradiction }
    refine hread.exec_update (f := fun u => { u with opa := v }) (fun _ => rfl) (fun _ => ?_) hx
    rcases hi with rfl | rfl
    · rfl
    · exact congrArg (State.complete _) hread.fillTables_eq

end Sys2Proof.Machine

/-! ### Proofs: the encoding (30_encoding.md): the turns of a mnemonic -/

namespace Sys2Proof.Machine

/-- The block with other turns to come and another record of reads: what stands outside it. -/
def State.withOutside (schedule : List Turn) (readLog : List Word) (s : State) : State :=
  { s with schedule := schedule, readLog := readLog }

/-- No register stands outside the block. -/
@[simp] theorem State.readReg_withOutside (s : State) (schedule : List Turn) (readLog : List Word) (r : HostReg) :
    (s.withOutside schedule readLog).readReg r = s.readReg r := by cases r <;> rfl

/-- No command depends on what stands outside the block, or changes it. -/
theorem exec_withOutside {i : Instr} {s t : State} (hx : exec i s = .next t) (schedule : List Turn)
    (readLog : List Word) : exec i (s.withOutside schedule readLog) = .next (t.withOutside schedule readLog) := by
  have hread : State.SameReads i s (s.withOutside schedule readLog) := {}
  refine hread.exec_update (fun _ => rfl) (fun _ => ?_) hx
  cases i with
  | build => exact congrArg (State.complete _) hread.fillTables_eq
  | popcnt8 | popcnt32 | wrbyte | rdbyte | clear | create | rank | select | rdlb | rdsb => rfl

/-- The run through all turns of the schedule. -/
def State.runSchedule (s : State) : Host.Outcome State Fault Refusal :=
  Host.Core.run Sys2Proof.core s.schedule.length s

theorem State.runSchedule_nil {s : State} (hs : s.schedule = []) : s.runSchedule = .next s := by
  rw [State.runSchedule, hs]
  rfl

/-- The run goes on from the state after its first turn. -/
theorem State.runSchedule_of_step {s t : State} {x : Turn} {rest : List Turn} (hs : s.schedule = x :: rest)
    (h : step s = .next t) : s.runSchedule = t.runSchedule := by
  obtain ⟨-, hrest⟩ := step_params_schedule h
  rw [State.runSchedule, State.runSchedule, hrest, hs]
  exact run_succ_of_next h rest.length

/-- A host write as the first turn of a run (20_memory.md R66). -/
theorem State.runSchedule_hostWr {s : State} {r : HostReg} {v : Word} {rest : List Turn} (hr : s.inReset = false)
    (hs : s.schedule = hostWr s.params r v :: rest) : s.runSchedule = ((s.writeReg r v).afterTurn rest).runSchedule :=
  State.runSchedule_of_step hs (step_hostWrite_reg r hr hs)

/-- A host read as the first turn of a run (20_memory.md R66). -/
theorem State.runSchedule_hostRd {s : State} (hr : s.inReset = false) (r : HostReg) (rest : List Turn)
    (log : List Word) :
    (s.withOutside (hostRd s.params r :: rest) log).runSchedule = (s.withOutside rest (s.readReg r :: log)).runSchedule := by
  let u := s.withOutside (hostRd s.params r :: rest) log
  have hru : u.inReset = false := hr
  have hs : u.schedule = Spec.hostAt u r.offset .read :: rest := rfl
  have hvalue : (u.afterTurn rest).readOffset r.offset = s.readReg r := by
    rw [State.readOffset_offset, State.readReg_afterTurn, State.readReg_withOutside]
  refine State.runSchedule_of_step hs ?_
  rw [step_hostRead hru hs r.offset_lt r.offset_mod_four, hvalue]
  rfl

/-- Polls of STATUS all return the same value, since a read changes nothing in the block (20_memory.md R66). -/
theorem State.runSchedule_polls {s : State} (hr : s.inReset = false) (lat : Nat) (rest : List Turn) (log : List Word) :
    (s.withOutside (List.replicate lat (hostRd s.params .status) ++ rest) log).runSchedule =
      (s.withOutside rest (List.replicate lat s.statusWord ++ log)).runSchedule := by
  induction lat generalizing log with
  | zero => rfl
  | succ lat ih =>
    have hlog : List.replicate (lat + 1) s.statusWord ++ log = List.replicate lat s.statusWord ++ s.statusWord :: log := by
      rw [List.replicate_succ', List.append_assoc, List.singleton_append]
    rw [List.replicate_succ, List.cons_append, State.runSchedule_hostRd hr, ih, hlog]
    rfl

/-- The engine's turn on an accepted command as the first turn of a run (60_exceptions.md R206). -/
theorem State.runSchedule_engine {s t : State} {i : Instr} (hb : s.busy = true) (hcmd : s.cmd = encode i)
    (hx : exec i s = .next t) (rest : List Turn) (log : List Word) :
    (s.withOutside (.engine :: rest) log).runSchedule = (t.withOutside rest log).runSchedule := by
  have hd : decode (s.withOutside rest log).cmd = .ok i := (decode_eq_ok_iff _ i).2 hcmd
  have hbusy : (s.withOutside rest log).busy = true := hb
  have hs : (s.withOutside (.engine :: rest) log).schedule = .engine :: rest := rfl
  refine State.runSchedule_of_step hs ?_
  calc step (s.withOutside (.engine :: rest) log) = (s.withOutside rest log).engineTurn := step_cons hs
    _ = exec i (s.withOutside rest log) := State.engineTurn_of_ok hbusy hd
    _ = .next (t.withOutside rest log) := exec_withOutside hx rest log

/-- The reads that end a mnemonic: the last one of `wait`, then STATUS and RESULT (30_encoding.md R88, R89). -/
def finalReads (p : Params) : List Turn := [hostRd p .status, hostRd p .status, hostRd p .result]

theorem State.runSchedule_finalReads {s : State} (hr : s.inReset = false) (log : List Word) :
    (s.withOutside (finalReads s.params) log).runSchedule =
      .next (s.withOutside [] (s.result :: s.statusWord :: s.statusWord :: log)) := by
  rw [finalReads, State.runSchedule_hostRd hr, State.runSchedule_hostRd hr, State.runSchedule_hostRd hr,
    State.runSchedule_nil rfl]
  rfl

/-- The turns of an issued command in the order they are taken (30_encoding.md R89). -/
theorem issueTurns_eq (p : Params) (lat : Nat) (i : Instr) :
    issueTurns p lat i =
      hostWr p .cmd (encode i) :: (List.replicate lat (hostRd p .status) ++ .engine :: finalReads p) := by
  simp [issueTurns, waitTurns, finalReads]

/-- Running the whole schedule of `s` performs command `i` with the operands `opa` and `opb`: `lat` polls read STATUS with
BUSY 1, and after the command the host reads STATUS twice and RESULT (30_encoding.md R89). -/
def State.RunsMnemonic (s : State) (lat : Nat) (i : Instr) (opa opb : Word) : Prop :=
  ∃ (t : State) (polls : List Word),
    exec i { s with opa := opa, opb := opb, cmd := encode i, busy := true, done := false, schedule := [] } = .next t ∧
    polls.length = lat ∧ (∀ w ∈ polls, w.getLsbD 0 = true) ∧
    s.runSchedule = .next { t with readLog := t.result :: t.statusWord :: t.statusWord :: polls ++ s.readLog }

/-- An idle block stores a write to OPA (20_memory.md R66). -/
theorem State.writeReg_opa_of_idle {s : State} (hb : s.busy = false) (v : Word) :
    s.writeReg .opa v = { s with opa := v } := by
  simp [State.writeReg, hb]

/-- An idle block stores a write to OPB (20_memory.md R66). -/
theorem State.writeReg_opb_of_idle {s : State} (hb : s.busy = false) (v : Word) :
    s.writeReg .opb v = { s with opb := v } := by
  simp [State.writeReg, hb]

/-- An idle block accepts a command word (60_exceptions.md R205). -/
theorem State.writeReg_cmd_of_idle {s : State} (hb : s.busy = false) (v : Word) : s.writeReg .cmd v = s.accept v := by
  simp [State.writeReg, hb]

section
variable {s : State} {lat : Nat} {i : Instr} {a b opa opb : Word} (hb : s.busy = false) (hr : s.inReset = false)
include hb hr

/-- A command word issued: acceptance, the polls, the engine's turn, the last reads (30_encoding.md R89). -/
theorem State.runsMnemonic_issueTurns (hs : s.schedule = issueTurns s.params lat i) :
    s.RunsMnemonic lat i s.opa s.opb := by
  let u := (s.accept (encode i)).withOutside [] s.readLog
  have hru : u.inReset = false := hr
  obtain ⟨t, hx⟩ := exec_answers i u
  obtain ⟨-, -, hhost⟩ := exec_done_busy_sameHost hx
  have hrt : t.inReset = false := hhost.inReset.trans hr
  let polls := List.replicate lat u.statusWord
  refine ⟨t, polls, hx, List.length_replicate, fun w hw => ?_, ?_⟩
  · obtain ⟨hbusy, -⟩ := u.statusWord_flags
    rw [List.eq_of_mem_replicate hw, hbusy]
    rfl
  · have hparams : finalReads u.params = finalReads t.params := congrArg finalReads hhost.params.symm
    rw [issueTurns_eq] at hs
    calc s.runSchedule
        = (u.withOutside (List.replicate lat (hostRd u.params .status) ++ .engine :: finalReads u.params)
            s.readLog).runSchedule := by
          rw [State.runSchedule_hostWr hr hs, State.writeReg_cmd_of_idle hb]
          rfl
      _ = (u.withOutside (.engine :: finalReads u.params) (polls ++ s.readLog)).runSchedule :=
          State.runSchedule_polls hru lat _ _
      _ = (t.withOutside (finalReads u.params) (polls ++ s.readLog)).runSchedule :=
          State.runSchedule_engine rfl rfl hx _ _
      _ = .next (t.withOutside [] (t.result :: t.statusWord :: t.statusWord :: (polls ++ s.readLog))) := by
          rw [hparams, State.runSchedule_finalReads hrt]
      _ = .next { t with readLog := t.result :: t.statusWord :: t.statusWord :: polls ++ s.readLog } := by
          have hsched : t.schedule = [] := hhost.schedule
          rw [State.withOutside, ← hsched]
          rfl

/-- A mnemonic may begin with a write to OPA. -/
theorem State.runsMnemonic_of_opa {rest : List Turn} (hs : s.schedule = hostWr s.params .opa a :: rest)
    (h : State.RunsMnemonic { s with opa := a, schedule := rest } lat i opa opb) : s.RunsMnemonic lat i opa opb := by
  obtain ⟨t, polls, hx, hlen, hbusy, hrun⟩ := h
  refine ⟨t, polls, hx, hlen, hbusy, ?_⟩
  rw [State.runSchedule_hostWr hr hs, State.writeReg_opa_of_idle hb]
  exact hrun

/-- A mnemonic may begin with a write to OPB. -/
theorem State.runsMnemonic_of_opb {rest : List Turn} (hs : s.schedule = hostWr s.params .opb b :: rest)
    (h : State.RunsMnemonic { s with opb := b, schedule := rest } lat i opa opb) : s.RunsMnemonic lat i opa opb := by
  obtain ⟨t, polls, hx, hlen, hbusy, hrun⟩ := h
  refine ⟨t, polls, hx, hlen, hbusy, ?_⟩
  rw [State.runSchedule_hostWr hr hs, State.writeReg_opb_of_idle hb]
  exact hrun

/-- A mnemonic with one operand: OPA written, the command issued (30_encoding.md R89). -/
theorem State.runsMnemonic_issueA (hs : s.schedule = issueA s.params lat i a) : s.RunsMnemonic lat i a s.opb :=
  State.runsMnemonic_of_opa hb hr hs (State.runsMnemonic_issueTurns hb hr rfl)

/-- A mnemonic with two operands: OPA and OPB written, the command issued (30_encoding.md R89). -/
theorem State.runsMnemonic_issueAB (hs : s.schedule = issueAB s.params lat i a b) : s.RunsMnemonic lat i a b :=
  State.runsMnemonic_of_opa hb hr hs (State.runsMnemonic_of_opb hb hr rfl (State.runsMnemonic_issueTurns hb hr rfl))

end

/-- Settles O59: a mnemonic has no operand, one or two, and each kind runs its command. -/
theorem hostMnemonicRunsItsCommand : Obligations.HostMnemonicRunsItsCommand := by
  intro s lat a b op i opa opb hb hr hmem hs
  simp only [List.mem_cons, Prod.mk.injEq, List.not_mem_nil, or_false] at hmem
  rcases hmem with ⟨rfl, rfl, rfl, rfl⟩ | ⟨rfl, rfl, rfl, rfl⟩ | ⟨rfl, rfl, rfl, rfl⟩ | ⟨rfl, rfl, rfl, rfl⟩ |
    ⟨rfl, rfl, rfl, rfl⟩ | ⟨rfl, rfl, rfl, rfl⟩ | ⟨rfl, rfl, rfl, rfl⟩ | ⟨rfl, rfl, rfl, rfl⟩ |
    ⟨rfl, rfl, rfl, rfl⟩ | ⟨rfl, rfl, rfl, rfl⟩ | ⟨rfl, rfl, rfl, rfl⟩
  · exact State.runsMnemonic_issueA hb hr hs
  · exact State.runsMnemonic_issueA hb hr hs
  · exact State.runsMnemonic_issueAB hb hr hs
  · exact State.runsMnemonic_issueA hb hr hs
  · exact State.runsMnemonic_issueTurns hb hr hs
  · exact State.runsMnemonic_issueA hb hr hs
  · exact State.runsMnemonic_issueTurns hb hr hs
  · exact State.runsMnemonic_issueAB hb hr hs
  · exact State.runsMnemonic_issueAB hb hr hs
  · exact State.runsMnemonic_issueA hb hr hs
  · exact State.runsMnemonic_issueA hb hr hs

end Sys2Proof.Machine

/-! ### Proofs: the popcount (40_popcount.md) -/

namespace Sys2Proof.Machine

/-- The size of the spec's set is the sum of the bits, each a binary digit of the value. -/
theorem onesIn_eq_sum {n : Nat} (v : BitVec n) (lo len : Nat) :
    Spec.onesIn v lo len = ∑ i ∈ Finset.range len, (v.getLsbD (lo + i)).toNat := by
  rw [Spec.onesIn, Finset.card_filter]
  refine Finset.sum_congr rfl fun i _ => ?_
  rw [BitVec.getLsbD, Nat.toNat_testBit]
  split <;> omega

theorem onesIn_one {n : Nat} (v : BitVec n) (i : Nat) : Spec.onesIn v i 1 = (v.getLsbD i).toNat := by
  simp [onesIn_eq_sum]

/-- A range of bits may be cut anywhere. -/
theorem onesIn_add {n : Nat} (v : BitVec n) (lo a b : Nat) :
    Spec.onesIn v lo (a + b) = Spec.onesIn v lo a + Spec.onesIn v (lo + a) b := by
  simp only [onesIn_eq_sum, Finset.sum_range_add, Nat.add_assoc]

theorem onesIn_le {n : Nat} (v : BitVec n) (lo len : Nat) : Spec.onesIn v lo len ≤ len :=
  (Finset.card_filter_le _ _).trans_eq (Finset.card_range len)

/-- The count depends on the bits it covers alone, not on the width of the value or where in it they stand. -/
theorem onesIn_congr {m n : Nat} {u : BitVec m} {v : BitVec n} {lo lo' len : Nat}
    (h : ∀ i < len, u.getLsbD (lo + i) = v.getLsbD (lo' + i)) : Spec.onesIn u lo len = Spec.onesIn v lo' len := by
  rw [onesIn_eq_sum, onesIn_eq_sum]
  exact Finset.sum_congr rfl fun i hi => by rw [h i (Finset.mem_range.1 hi)]

/-- The 1 bits of a whole value, counted from its most significant bit down. -/
theorem onesIn_eq_sum_getMsbD {n : Nat} (v : BitVec n) :
    Spec.onesIn v 0 n = ∑ j ∈ Finset.range n, (v.getMsbD j).toNat := by
  rw [onesIn_eq_sum, ← Finset.sum_range_reflect]
  refine Finset.sum_congr rfl fun j hj => ?_
  rw [BitVec.getMsbD, decide_eq_true (Finset.mem_range.1 hj), Bool.true_and, Nat.zero_add]

/-! #### The table -/

/-- The rows of the table are data: each of the 256 entries is checked (40_popcount.md R100). -/
theorem popcntLut_getElem? (b : Byte) : popcntLut[b.toNat]? = some (Spec.onesIn b 0 8) := by
  revert b
  decide

theorem popcntLut_length : popcntLut.length = 256 := by
  rw [popcntLut]
  simp only [List.length_append]
  rfl

/-- A lookup counts the 1 bits of its byte (40_popcount.md R100). -/
theorem popcount8_eq_onesIn (b : Byte) : popcount8 b = Spec.onesIn b 0 8 := by
  rw [popcount8, List.getD_eq_getElem?_getD, popcntLut_getElem?, Option.getD_some]

/-- A lookup at a byte of a word counts the word's 1 bits there. -/
theorem popcount8_extract (w : Word) (lo : Nat) : popcount8 (w.extractLsb' lo 8) = Spec.onesIn w lo 8 := by
  rw [popcount8_eq_onesIn]
  refine onesIn_congr fun i hi => ?_
  rw [Nat.zero_add, BitVec.getLsbD_extractLsb', decide_eq_true hi, Bool.true_and]

/-- Settles O6: sixteen rows of sixteen, and the entries as checked. -/
theorem popcountTableCountsByteBits : Obligations.PopcountTableCountsByteBits :=
  ⟨popcntLut_length, popcntLut_getElem?⟩

/-- Settles O8: within a byte, OPA's low 8 bits are the byte the table is asked for. -/
theorem popcnt8CountsByteOperand : Obligations.Popcnt8CountsByteOperand := by
  refine ⟨decode_encode .popcnt8, fun s => ⟨fun hbig => ?_, fun hbyte => ?_⟩⟩
  · rcases execPopcnt8_cases s with ⟨-, h⟩ | ⟨hle, -⟩
    · exact h
    · exact absurd hle (Nat.not_le.2 hbig)
  · rcases execPopcnt8_cases s with ⟨hgt, -⟩ | ⟨-, h⟩
    · exact absurd hbyte (Nat.not_le.2 hgt)
    · have hlookup : popcount8 (s.opa.setWidth 8) = Spec.onesIn s.opa 0 8 := popcount8_extract s.opa 0
      rw [h, hlookup]
      rfl

/-! #### The reduction tree -/

/-- An adder stage over an even number of fields: sum `g` is that of fields 2g and 2g + 1. -/
theorem pairSums_map_range (k : Nat) (f : Nat → Nat) :
    pairSums ((List.range (2 * k)).map f) = (List.range k).map fun g => f (2 * g) + f (2 * g + 1) := by
  induction k generalizing f with
  | zero => rfl
  | succ k ih =>
    have hcut : (List.range (2 * (k + 1))).map f = f 0 :: f 1 :: (List.range (2 * k)).map fun i => f (i + 2) := by
      rw [Nat.mul_succ, List.range_succ_eq_map, List.range_succ_eq_map]
      simp [Function.comp_def]
    rw [hcut, pairSums, ih, List.range_succ_eq_map]
    simp [Function.comp_def, Nat.mul_succ]

/-- Every field of every stage counts the 1 bits it sums (40_popcount.md R101). -/
theorem popcountStage_eq (w : Word) {s : Nat} (hs : s ≤ 5) :
    popcountStage w s = (List.range (32 / 2 ^ s)).map fun g => Spec.onesIn w (2 ^ s * g) (2 ^ s) := by
  induction s with
  | zero => simp [popcountStage, bitFields, onesIn_one]
  | succ s ih =>
    have hfields : 32 / 2 ^ s = 2 * (32 / 2 ^ (s + 1)) := by
      have : s < 5 := hs
      interval_cases s <;> rfl
    rw [popcountStage, ih (by omega), hfields, pairSums_map_range]
    refine List.map_congr_left fun g _ => ?_
    rw [Nat.pow_succ, Nat.mul_two (2 ^ s), onesIn_add]
    congr 2 <;> ring

/-- The root counts the word's 1 bits (40_popcount.md R101). -/
theorem popcount32_eq_onesIn (w : Word) : popcount32 w = Spec.onesIn w 0 32 := by
  rw [popcount32, popcountStage_eq w (Nat.le_refl 5)]
  rfl

/-- Four lookups count the word's 1 bits, a byte at a time (40_popcount.md R101). -/
theorem popcount32ByTable_eq_onesIn (w : Word) : popcount32ByTable w = Spec.onesIn w 0 32 := by
  have hcut : Spec.onesIn w 0 (8 + 8 + 8 + 8) =
      Spec.onesIn w 0 8 + Spec.onesIn w 8 8 + Spec.onesIn w 16 8 + Spec.onesIn w 24 8 := by
    simp only [onesIn_add, Nat.zero_add]
  rw [popcount32ByTable, popcount8_extract, popcount8_extract, popcount8_extract, popcount8_extract, ← hcut]

/-- Settles O7: by induction on the stages, and from the table by the bytes. -/
theorem popcountTreeCountsWordBits : Obligations.PopcountTreeCountsWordBits := by
  intro w
  refine ⟨fun s hs => popcountStage_eq w hs, ?_, popcount32_eq_onesIn w, ?_, ?_⟩
  · rw [popcountStage_eq w (by decide)]
    exact List.map_congr_left fun g _ => (popcount8_extract w (8 * g)).symm
  · rw [popcount32_eq_onesIn]
    exact onesIn_le w 0 32
  · rw [popcount32ByTable_eq_onesIn, popcount32_eq_onesIn]

/-- Settles O9: RESULT is the root of the tree over OPA. -/
theorem popcnt32CountsWordOperand : Obligations.Popcnt32CountsWordOperand := by
  refine ⟨decode_encode .popcnt32, fun s => ?_⟩
  rw [execPopcnt32_eq, popcount32_eq_onesIn]
  rfl

/-! #### Counting by words -/

/-- Place `j` of a word, from the most significant down, is in byte j / 8 of its four (20_memory.md R63). -/
theorem State.vectorWord_getMsbD (s : State) (w : Nat) {j : Nat} (hj : j < 32) :
    (s.vectorWord w).getMsbD j = (s.vectorByte (4 * w + j / 8)).getMsbD (j % 8) := by
  rw [State.vectorWord]
  simp only [BitVec.getMsbD_append]
  obtain h | h | h | h : j / 8 = 0 ∨ j / 8 = 1 ∨ j / 8 = 2 ∨ j / 8 = 3 := by omega
  · rw [if_neg (by omega), if_neg (by omega), if_neg (by omega), h, show j % 8 = j by omega]
    rfl
  · rw [if_neg (by omega), if_neg (by omega), if_pos (by omega), h, show j % 8 = j - 8 by omega]
  · rw [if_neg (by omega), if_pos (by omega), h, show j % 8 = j - 16 by omega]
  · rw [if_pos (by omega), h, show j % 8 = j - 24 by omega]

/-- Position 32w + j of the bit-vector is at place `j` of word `w` (20_memory.md R63). -/
theorem State.vectorWord_getMsbD_eq_bit (s : State) {w j : Nat} (hj : j < 32)
    (hlen : 32 * w + j < 8 * s.lenbytes.toNat) : (s.vectorWord w).getMsbD j = s.bit (32 * w + j) := by
  have hpos : 32 * w + j = 8 * (4 * w + j / 8) + j % 8 := by omega
  rw [s.vectorWord_getMsbD w hj, State.vectorByte, if_pos (by omega), hpos]
  exact (bitOrderIsMostSignificantFirst s _ _ (Nat.mod_lt j (by decide))).symm

/-- The mask of word `w` holds the places whose positions lie in the range. -/
theorem rangeMask_getMsbD (lo hi w : Nat) {j : Nat} (hj : j < 32) :
    (rangeMask lo hi w).getMsbD j = decide (lo ≤ 32 * w + j ∧ 32 * w + j < hi) := by
  have hfrom (p : Nat) : (BitVec.allOnes 32 >>> (p - 32 * w)).getMsbD j = decide (p ≤ 32 * w + j) := by
    simp only [BitVec.getMsbD_ushiftRight, BitVec.getMsbD_allOnes, decide_eq_true hj, Bool.true_and,
      ← decide_not, ← Bool.decide_and]
    exact decide_eq_decide.2 (by omega)
  rw [rangeMask, BitVec.getMsbD_and, BitVec.getMsbD_not, hfrom, hfrom]
  simp [hj, ← decide_not]

/-- What position `p` adds to a count over [lo, hi). -/
def State.oneInRange (s : State) (lo hi p : Nat) : Nat := if lo ≤ p ∧ p < hi then (s.bit p).toNat else 0

/-- popcount32 over a masked word counts the positions of the word that are in the range and hold 1. -/
theorem State.popcount32_masked (s : State) {hi : Nat} (hhi : hi ≤ 8 * s.lenbytes.toNat) (lo w : Nat) :
    popcount32 (s.vectorWord w &&& rangeMask lo hi w) =
      ∑ j ∈ Finset.range 32, s.oneInRange lo hi (32 * w + j) := by
  rw [popcount32_eq_onesIn, onesIn_eq_sum_getMsbD]
  refine Finset.sum_congr rfl fun j hj => ?_
  have hj := Finset.mem_range.1 hj
  rw [BitVec.getMsbD_and, rangeMask_getMsbD lo hi w hj, State.oneInRange]
  split
  · next hin =>
    rw [s.vectorWord_getMsbD_eq_bit hj (hin.2.trans_le hhi), decide_eq_true hin, Bool.and_true]
  · next hout =>
    rw [decide_eq_false hout, Bool.and_false, Bool.toNat_false]

/-- `k` blocks of `n` places cover the positions below nk, each once. -/
theorem sum_blocks (f : Nat → Nat) (n k : Nat) :
    ((List.range k).map fun w => ∑ j ∈ Finset.range n, f (n * w + j)).sum = ∑ p ∈ Finset.range (n * k), f p := by
  induction k with
  | zero => rfl
  | succ k ih => rw [List.sum_range_succ, ih, Nat.mul_succ, Finset.sum_range_add]

/-- Positions outside the range add nothing to its count. -/
theorem State.sum_oneInRange (s : State) (lo : Nat) {hi n : Nat} (hn : hi ≤ n) :
    ∑ p ∈ Finset.range n, s.oneInRange lo hi p = Spec.count s true lo hi := by
  have hrange : (Finset.range n).filter (fun p => lo ≤ p ∧ p < hi) = Finset.Ico lo hi := by
    ext p
    simp only [Finset.mem_filter, Finset.mem_range, Finset.mem_Ico]
    omega
  simp only [State.oneInRange]
  rw [← Finset.sum_filter, hrange, Spec.count, Finset.card_filter]
  refine Finset.sum_congr rfl fun p _ => ?_
  rw [← State.bit_eq_bitAt]
  cases s.bit p <;> rfl

/-- Settles O23: word by word, the masked words count what each position adds; the words reach beyond the range. -/
theorem wordwiseCountEqualsBitCount : Obligations.WordwiseCountEqualsBitCount := by
  intro s lo hi hnbits hhi
  have hreach : hi ≤ 32 * (hi / 32 + 1) := by omega
  rw [hnbits] at hhi
  calc s.onesByWords lo hi
      = ((List.range (hi / 32 + 1)).map fun w => ∑ j ∈ Finset.range 32, s.oneInRange lo hi (32 * w + j)).sum := by
        simp only [State.onesByWords, s.popcount32_masked hhi]
    _ = ∑ p ∈ Finset.range (32 * (hi / 32 + 1)), s.oneInRange lo hi p := sum_blocks (s.oneInRange lo hi) 32 _
    _ = Spec.count s true lo hi := s.sum_oneInRange lo hreach

end Sys2Proof.Machine

/-! ### Proofs: the vector memory (41_vector_memory.md): WRBYTE, RDBYTE and CLEAR -/

namespace Sys2Proof.Machine

/-! #### Bytes of a state -/

@[simp] theorem State.readByte_complete (s : State) (v : Word) (a : Nat) :
    (s.complete v).readByte a = s.readByte a := rfl

/-- The byte written is the byte read. -/
theorem State.readByte_writeByte_same {s : State} (h : s.ram.WF) (a : Nat) (v : Byte) :
    (s.writeByte a v).readByte a = v := Memory.read_write_same h a v

/-- A write leaves every other byte alone. -/
theorem State.readByte_writeByte_other {s : State} (h : s.ram.WF) {a b : Nat} (v : Byte) (hab : b ≠ a) :
    (s.writeByte a v).readByte b = s.readByte b := Memory.read_write_other h v hab

theorem State.readByte_of_ram_eq {s t : State} (h : t.ram = s.ram) (a : Nat) : t.readByte a = s.readByte a :=
  congrArg (Memory.read · a) h

/-- A byte operand read back as a register value is the register's. -/
theorem setWidth_byte_of_le {v : Word} (h : v.toNat ≤ 0xFF) : (v.setWidth 8).setWidth 32 = v := by
  refine BitVec.eq_of_toNat_eq ?_
  rw [BitVec.toNat_setWidth, setWidth_toNat_of_le h, Nat.mod_eq_of_lt v.isLt]

/-! #### WRBYTE, the case its operands choose (41_vector_memory.md R121) -/

theorem execWrbyte_of_not_empty {s : State} (hi : s.index ≠ .empty) :
    exec .wrbyte s = .next (s.raiseError .vectorImmutable) := by
  rcases execWrbyte_cases s with ⟨-, h⟩ | ⟨hempty, -⟩ | ⟨hempty, -⟩ | ⟨hempty, -⟩
  · exact h
  all_goals exact absurd hempty hi

theorem execWrbyte_of_bad_value {s : State} (hi : s.index = .empty) (hb : 0xFF < s.opb.toNat) :
    exec .wrbyte s = .next (s.raiseError .badByteValue) := by
  rcases execWrbyte_cases s with ⟨hindex, -⟩ | ⟨-, -, h⟩ | ⟨-, hle, -⟩ | ⟨-, hle, -⟩
  · exact absurd hi hindex
  · exact h
  all_goals exact absurd hle (Nat.not_le.2 hb)

theorem execWrbyte_of_bad_address {s : State} (hi : s.index = .empty) (hb : s.opb.toNat ≤ 0xFF)
    (ha : s.params.maxBytes.toNat ≤ s.opa.toNat) : exec .wrbyte s = .next (s.raiseError .byteAddress) := by
  rcases execWrbyte_cases s with ⟨hindex, -⟩ | ⟨-, hgt, -⟩ | ⟨-, -, -, h⟩ | ⟨-, -, hlt, -⟩
  · exact absurd hi hindex
  · exact absurd hb (Nat.not_le.2 hgt)
  · exact h
  · exact absurd ha (Nat.not_le.2 hlt)

theorem execWrbyte_of_valid {s : State} (hi : s.index = .empty) (hb : s.opb.toNat ≤ 0xFF)
    (ha : s.opa.toNat < s.params.maxBytes.toNat) :
    exec .wrbyte s = .next ((s.writeByte s.opa.toNat (s.opb.setWidth 8)).complete 0#32) := by
  rcases execWrbyte_cases s with ⟨hindex, -⟩ | ⟨-, hgt, -⟩ | ⟨-, -, hge, -⟩ | ⟨-, -, -, h⟩
  · exact absurd hi hindex
  · exact absurd hb (Nat.not_le.2 hgt)
  · exact absurd ha (Nat.not_lt.2 hge)
  · exact h

/-- Settles O10: one rule a check, and the reads after the write of the byte. -/
theorem wrbyteStoresOneByte : Obligations.WrbyteStoresOneByte := by
  refine ⟨decode_encode .wrbyte, fun s hram => ⟨execWrbyte_of_not_empty, execWrbyte_of_bad_value,
    execWrbyte_of_bad_address, fun hi hb ha => ⟨_, execWrbyte_of_valid hi hb ha, ?_, fun a hne => ?_, rfl⟩⟩⟩
  · rw [State.readByte_complete, State.readByte_writeByte_same hram, setWidth_toNat_of_le hb]
  · rw [State.readByte_complete, State.readByte_writeByte_other hram _ hne]

/-! #### RDBYTE (41_vector_memory.md R122) -/

theorem execRdbyte_of_bad_address {s : State} (ha : s.params.maxBytes.toNat ≤ s.opa.toNat) :
    exec .rdbyte s = .next (s.raiseError .byteAddress) := by
  rcases execRdbyte_cases s with ⟨-, h⟩ | ⟨hlt, -⟩
  · exact h
  · exact absurd ha (Nat.not_le.2 hlt)

theorem execRdbyte_of_valid {s : State} (ha : s.opa.toNat < s.params.maxBytes.toNat) :
    exec .rdbyte s = .next (s.complete ((s.readByte s.opa.toNat).setWidth 32)) := by
  rcases execRdbyte_cases s with ⟨hge, -⟩ | ⟨-, h⟩
  · exact absurd ha (Nat.not_lt.2 hge)
  · exact h

/-- Settles O11: the two cases of RDBYTE; zero extension keeps the byte's value. -/
theorem rdbyteReturnsStoredByte : Obligations.RdbyteReturnsStoredByte := by
  refine ⟨decode_encode .rdbyte, fun s => ⟨execRdbyte_of_bad_address, fun ha => ?_⟩⟩
  rw [execRdbyte_of_valid ha, BitVec.ofNat_toNat]
  rfl

/-- Settles O13: the second write finds the vector RAM in canonical form again, and RDBYTE extends what it stored. -/
theorem readBackIsLastByteWritten : Obligations.ReadBackIsLastByteWritten := by
  intro s a d d' hram hi ha hd hd'
  have hwritten : (s.ram.write a.toNat (d.setWidth 8)).WF := Memory.write_wf hram _ _
  refine ⟨_, _, _, execWrbyte_of_valid hi hd ha, execWrbyte_of_valid hi hd' ha, execRdbyte_of_valid ha, rfl, ?_⟩
  have hbyte := Memory.read_write_same hwritten a.toNat (d'.setWidth 8)
  exact (congrArg (BitVec.setWidth 32) hbyte).trans (setWidth_byte_of_le hd')

/-! #### CLEAR (41_vector_memory.md R123) -/

/-- Settles O12: an empty list of bytes reads 0 everywhere. -/
theorem clearDiscardsIndexAndVector : Obligations.ClearDiscardsIndexAndVector :=
  ⟨decode_encode .clear, fun s => ⟨_, execClear_eq s, Memory.read_nil, rfl⟩⟩

end Sys2Proof.Machine

/-! ### Proofs: the vector memory (41_vector_memory.md): immutability under an index -/

namespace Sys2Proof.Machine

/-- Only WRBYTE and CLEAR change the vector RAM. -/
theorem commandChange_ram {i : Instr} (hclear : i ≠ .clear) (hwrbyte : i ≠ .wrbyte) (s : State) :
    (commandChange i s).ram = s.ram := by
  cases i with
  | clear => exact absurd rfl hclear
  | wrbyte => exact absurd rfl hwrbyte
  | popcnt8 | popcnt32 | rdbyte | create | build | rank | select | rdlb | rdsb => rfl

/-- A command keeps the vector RAM unless it is CLEAR, or WRBYTE in EMPTY, where alone WRBYTE succeeds. -/
theorem exec_ram {i : Instr} {s t : State} (hx : exec i s = .next t) (hclear : i ≠ .clear)
    (hi : i ≠ .wrbyte ∨ s.index ≠ .empty) : t.ram = s.ram := by
  rcases exec_next_cases hx with ⟨c, -, rfl⟩ | ⟨he, v, rfl⟩
  · rfl
  · have hwrbyte : i ≠ .wrbyte := by
      rintro rfl
      exact hi.elim (absurd rfl) (absurd (execWrbyte_success hx he).1)
    exact commandChange_ram hclear hwrbyte s

/-- CLEAR ends the index, so the engine keeps the vector RAM while one persists. -/
theorem State.engineTurn_ram {s t : State} (h : s.engineTurn = .next t) (hs : s.index ≠ .empty)
    (ht : t.index ≠ .empty) : t.ram = s.ram := by
  rcases s.engineTurn_cases with ⟨-, hidle⟩ | ⟨-, e, -, herr⟩ | ⟨-, i, -, hexec⟩
  · cases h.symm.trans hidle
    rfl
  · cases h.symm.trans herr
    rfl
  · have hx : exec i s = .next t := hexec.symm.trans h
    have hclear : i ≠ .clear := by
      rintro rfl
      cases hx.symm.trans (execClear_eq s)
      exact ht rfl
    exact exec_ram hx hclear (.inr hs)

/-- No register of the window reaches the vector RAM (20_memory.md R66). -/
theorem State.writeReg_ram (s : State) (r : HostReg) (v : Word) : (s.writeReg r v).ram = s.ram := by
  rcases s.writeReg_cases r v with ⟨-, -, e⟩ | ⟨-, -, e⟩ | ⟨-, ⟨-, e⟩ | ⟨-, e⟩ | ⟨-, e⟩ | ⟨-, e⟩⟩ | ⟨-, e⟩ | ⟨-, e⟩ |
    ⟨-, e⟩ <;> rw [e] <;> rfl

theorem State.hostAccess_ram {s t : State} {a : HostAccess} (h : s.hostAccess a = .next t) : t.ram = s.ram := by
  rcases s.hostAccess_cases a with ⟨-, e⟩ | ⟨-, -, e⟩ | ⟨-, -, -, e⟩ | ⟨-, -, -, -, e⟩ | ⟨v, -, -, -, -, e⟩ <;>
    cases h.symm.trans e
  · rfl
  · rfl
  · rcases s.writeOffset_cases (a.addr - s.params.baseAddr) v with ⟨r, -, hreg⟩ | ⟨-, hnone⟩
    · rw [hreg]
      exact s.writeReg_ram r v
    · rw [hnone]

/-- A step between states with an index keeps the vector RAM: an asserted reset would have ended the index. -/
theorem step_ram {s t : State} (h : step s = .next t) (hs : s.index ≠ .empty) (ht : t.index ≠ .empty) :
    t.ram = s.ram := by
  rcases step_next_cases h with ⟨rest, -, he⟩ | ⟨a, rest, -, ha⟩ | ⟨rest, -, rfl⟩ | ⟨rest, -, rfl⟩
  · exact State.engineTurn_ram (s := s.afterTurn rest) he hs ht
  · exact State.hostAccess_ram (s := s.afterTurn rest) ha
  · exact absurd rfl ht
  · rfl

/-- Settles O37: the vector RAM is the same list, so every byte reads as before. -/
theorem vectorIsImmutableUnderAnIndex : Obligations.VectorIsImmutableUnderAnIndex :=
  ⟨fun _ _ _ hx hclear hi => State.readByte_of_ram_eq (exec_ram hx hclear hi),
    fun _ _ h hs ht => State.readByte_of_ram_eq (step_ram h hs ht)⟩

end Sys2Proof.Machine

/-! ### Proofs: the index (42_index_build.md): CREATE, the case its checks choose (R141 to R143) -/

namespace Sys2Proof.Machine

theorem execCreate_of_bad_sizes {s : State}
    (hv : ¬ (1 ≤ s.sbscfg.toNat ∧ 1 ≤ s.lbscfg.toNat ∧ s.lbscfg.toNat % s.sbscfg.toNat = 0)) :
    exec .create s = .next (s.raiseError .badBlockConfig) := by
  rcases execCreate_cases s with ⟨-, h⟩ | ⟨hvalid, -⟩ | ⟨hvalid, -⟩ | ⟨hvalid, -⟩
  · exact h
  all_goals exact absurd hvalid hv

section
variable {s : State}
  (hv : 1 ≤ s.sbscfg.toNat ∧ 1 ≤ s.lbscfg.toNat ∧ s.lbscfg.toNat % s.sbscfg.toNat = 0)
include hv

theorem execCreate_of_bad_length (hlen : s.params.maxBytes.toNat < s.opa.toNat) :
    exec .create s = .next (s.raiseError .lengthCapacity) := by
  rcases execCreate_cases s with ⟨hbad, -⟩ | ⟨-, -, h⟩ | ⟨-, hle, -⟩ | ⟨-, hle, -⟩
  · exact absurd hv hbad
  · exact h
  all_goals exact absurd hlen (Nat.not_lt.2 hle)

theorem execCreate_of_small_tables (hlen : s.opa.toNat ≤ s.params.maxBytes.toNat)
    (hsmall : s.params.lbCap.toNat < 8 * s.opa.toNat / s.lbscfg.toNat + 1 ∨
      s.params.sbCap.toNat < 8 * s.opa.toNat / s.sbscfg.toNat + 1) :
    exec .create s = .next (s.raiseError .tableCapacity) := by
  rcases execCreate_cases s with ⟨hbad, -⟩ | ⟨-, hgt, -⟩ | ⟨-, -, -, h⟩ | ⟨-, -, ⟨hlb, hsb⟩, -⟩
  · exact absurd hv hbad
  · exact absurd hlen (Nat.not_le.2 hgt)
  · exact h
  · omega

theorem execCreate_of_valid (hlen : s.opa.toNat ≤ s.params.maxBytes.toNat)
    (hlb : 8 * s.opa.toNat / s.lbscfg.toNat + 1 ≤ s.params.lbCap.toNat)
    (hsb : 8 * s.opa.toNat / s.sbscfg.toNat + 1 ≤ s.params.sbCap.toNat) :
    exec .create s = .next ((s.newIndex s.opa s.lbscfg s.sbscfg).complete (toWord (8 * s.opa.toNat))) := by
  rcases execCreate_cases s with ⟨hbad, -⟩ | ⟨-, hgt, -⟩ | ⟨-, -, hnofit, -⟩ | ⟨-, -, -, h⟩
  · exact absurd hv hbad
  · exact absurd hlen (Nat.not_le.2 hgt)
  · exact absurd ⟨hlb, hsb⟩ hnofit
  · exact h

end

/-- Settles O14: one rule a check, and the new index where all pass. -/
theorem createFixesGeometry : Obligations.CreateFixesGeometry := by
  refine ⟨decode_encode .create, ?_⟩
  rintro s _ _ _ rfl rfl rfl
  exact ⟨execCreate_of_bad_sizes,
    fun hsbs hlbs hmod => execCreate_of_bad_length ⟨hsbs, hlbs, hmod⟩,
    fun hsbs hlbs hmod => execCreate_of_small_tables ⟨hsbs, hlbs, hmod⟩,
    fun hsbs hlbs hmod => execCreate_of_valid ⟨hsbs, hlbs, hmod⟩⟩

/-- A table over a vector that fits, with blocks not smaller than those it was dimensioned for, fits. -/
theorem table_fits {len maxBytes block minBlock cap : Nat} (hlen : len ≤ maxBytes) (hblock : minBlock ≤ block)
    (hmin : minBlock ≠ 0) (hcap : 8 * maxBytes / minBlock + 1 ≤ cap) : 8 * len / block + 1 ≤ cap :=
  (Nat.succ_le_succ (Nat.div_le_div (Nat.mul_le_mul_left 8 hlen) hblock hmin)).trans hcap

/-- Settles O15: R6 dimensions the tables for MAX_BYTES with blocks of 256 and 32, and N for 32 bits. -/
theorem largeBlockSizesAlwaysFit : Obligations.LargeBlockSizesAlwaysFit := by
  rintro s ⟨-, hmax, hlbCap, hsbCap, -⟩ hlen hlbs hsbs hmod
  have hlb := table_fits hlen hlbs (by decide) hlbCap
  have hsb := table_fits hlen hsbs (by decide) hsbCap
  exact ⟨_, execCreate_of_valid ⟨by omega, by omega, hmod⟩ hlen hlb hsb, rfl, rfl, toWord_toNat (by omega), rfl⟩

end Sys2Proof.Machine

/-! ### Proofs: the index (42_index_build.md): BUILD (R145 to R147) -/

namespace Sys2Proof.Machine

theorem execBuild_of_empty {s : State} (hi : s.index = .empty) :
    exec .build s = .next (s.raiseError .notCreated) := by
  rcases execBuild_cases s with ⟨-, h⟩ | ⟨hindex, -⟩
  · exact h
  · exact absurd hi hindex

theorem execBuild_of_not_empty {s : State} (hi : s.index ≠ .empty) :
    exec .build s = .next (s.fillTables.complete (toWord (s.ones 0 s.nbits.toNat))) := by
  rcases execBuild_cases s with ⟨hempty, -⟩ | ⟨-, h⟩
  · exact absurd hempty hi
  · exact h

/-- The model's count of 1 bits as a register value is the spec's. -/
theorem State.toWord_ones (s : State) (lo hi : Nat) :
    toWord (s.ones lo hi) = BitVec.ofNat 32 (Spec.count s true lo hi) :=
  congrArg toWord (s.count_eq_spec true lo hi)

/-- Settles O16: the tables' values are those `fillTables` gives them. -/
theorem buildFillsTables : Obligations.BuildFillsTables := by
  refine ⟨decode_encode .build, fun s => ⟨execBuild_of_empty, fun hi =>
    ⟨_, execBuild_of_not_empty hi, s.fillTables_lb_toNat, s.fillTables_sb_toNat, ?_⟩⟩⟩
  rw [s.toWord_ones]
  rfl

/-- Lists of words with the same values are the same. -/
theorem words_eq_of_toNat_eq {l m : List Word} (h : l.map BitVec.toNat = m.map BitVec.toNat) : l = m :=
  List.map_injective_iff.2 (fun _ _ => BitVec.eq_of_toNat_eq) h

/-- In BUILT the large-block table holds what a BUILD would write (42_index_build.md R145). -/
theorem State.Inv.fillTables_lb_of_built {s : State} (h : s.Inv) (hi : s.index = .built) : s.fillTables.lb = s.lb :=
  words_eq_of_toNat_eq (s.fillTables_lb_toNat.trans (h.lb_built hi).symm)

/-- In BUILT the small-block table holds what a BUILD would write (42_index_build.md R146). -/
theorem State.Inv.fillTables_sb_of_built {s : State} (h : s.Inv) (hi : s.index = .built) : s.fillTables.sb = s.sb :=
  words_eq_of_toNat_eq (s.fillTables_sb_toNat.trans (h.sb_built hi).symm)

/-- Settles O17: BUILD's values are the ones the invariant gives the tables. -/
theorem rebuildKeepsTables : Obligations.RebuildKeepsTables := by
  intro s h hi
  have hindex : s.index ≠ .empty := by simp [hi]
  exact ⟨_, execBuild_of_not_empty hindex, rfl, h.fillTables_lb_of_built hi, h.fillTables_sb_of_built hi, rfl⟩

end Sys2Proof.Machine

/-! ### Proofs: the index (42_index_build.md): large and small blocks (R142, R144) -/

namespace Sys2Proof.Machine

section
variable {s : State} (hmod : s.lbs.toNat % s.sbs.toNat = 0)
include hmod

theorem State.blockRatio_mul_sbs : s.blockRatio * s.sbs.toNat = s.lbs.toNat :=
  Nat.div_mul_cancel (Nat.dvd_of_mod_eq_zero hmod)

theorem State.blockRatio_pos (hlbs : 1 ≤ s.lbs.toNat) : 0 < s.blockRatio :=
  Nat.pos_of_mul_pos_right ((s.blockRatio_mul_sbs hmod).symm ▸ hlbs)

/-- Small block `j` starts `j mod r` small blocks into large block `floor(j / r)`. -/
theorem State.smallBlock_start (j : Nat) :
    j * s.sbs.toNat = j / s.blockRatio * s.lbs.toNat + j % s.blockRatio * s.sbs.toNat := by
  conv_lhs => rw [← Nat.div_add_mod j s.blockRatio]
  rw [← State.blockRatio_mul_sbs hmod]
  ring

/-- Where `r` divides `j`, small block `j` starts with its large block. -/
theorem State.largeBlock_start_of_boundary {j : Nat} (hb : j % s.blockRatio = 0) :
    j / s.blockRatio * s.lbs.toNat = j * s.sbs.toNat := by
  rw [State.smallBlock_start hmod j, hb, Nat.zero_mul, Nat.add_zero]

/-- A large-block boundary starts the count of SB anew (42_index_build.md R146). -/
theorem State.sbSnapshot_of_boundary {j : Nat} (hb : j % s.blockRatio = 0) : s.sbSnapshot j = 0 := by
  rw [State.sbSnapshot, State.largeBlock_start_of_boundary hmod hb]
  exact s.count_self true _

/-- SB counts over `j mod r` small blocks, of which a large block has `r` (42_index_build.md R146). -/
theorem State.sbSnapshot_le (hlbs : 1 ≤ s.lbs.toNat) (j : Nat) : s.sbSnapshot j ≤ s.lbs.toNat - s.sbs.toNat := by
  have hinside : j % s.blockRatio ≤ s.blockRatio - 1 :=
    Nat.le_pred_of_lt (Nat.mod_lt _ (State.blockRatio_pos hmod hlbs))
  calc s.sbSnapshot j
      ≤ j * s.sbs.toNat - j / s.blockRatio * s.lbs.toNat := s.count_le true _ _
    _ = j % s.blockRatio * s.sbs.toNat := by rw [State.smallBlock_start hmod, Nat.add_sub_cancel_left]
    _ ≤ (s.blockRatio - 1) * s.sbs.toNat := Nat.mul_le_mul_right _ hinside
    _ = s.lbs.toNat - s.sbs.toNat := by rw [Nat.sub_mul, State.blockRatio_mul_sbs hmod, Nat.one_mul]

end

end Sys2Proof.Machine

/-! ### Proofs: the index (42_index_build.md): table readout (R150, R151) -/

namespace Sys2Proof.Machine

/-! #### RDLB, the case its operand chooses -/

theorem execRdlb_of_not_built {s : State} (hi : s.index ≠ .built) :
    exec .rdlb s = .next (s.raiseError .notBuilt) := by
  rcases execRdlb_cases s with ⟨-, h⟩ | ⟨hbuilt, -⟩ | ⟨hbuilt, -⟩
  · exact h
  all_goals exact absurd hbuilt hi

theorem execRdlb_of_beyond {s : State} (hi : s.index = .built) (hk : s.nbits.toNat / s.lbs.toNat < s.opa.toNat) :
    exec .rdlb s = .next (s.raiseError .tableIndex) := by
  rcases execRdlb_cases s with ⟨hindex, -⟩ | ⟨-, -, h⟩ | ⟨-, hle, -⟩
  · exact absurd hi hindex
  · exact h
  · exact absurd hk (Nat.not_lt.2 hle)

theorem execRdlb_of_entry {s : State} {v : Word} (hi : s.index = .built)
    (hk : s.opa.toNat ≤ s.nbits.toNat / s.lbs.toNat) (hv : s.lb[s.opa.toNat]? = some v) :
    exec .rdlb s = .next (s.complete v) := by
  have hentry : s.lbEntry s.opa.toNat = v := by
    rw [State.lbEntry, List.getD_eq_getElem?_getD, hv, Option.getD_some]
  rcases execRdlb_cases s with ⟨hindex, -⟩ | ⟨-, hgt, -⟩ | ⟨-, -, h⟩
  · exact absurd hi hindex
  · exact absurd hk (Nat.not_le.2 hgt)
  · rw [h, hentry]

/-- Settles O18: one rule a check, and the defined entry. -/
theorem rdlbReturnsLargeBlockEntry : Obligations.RdlbReturnsLargeBlockEntry :=
  ⟨decode_encode .rdlb, fun _ => ⟨execRdlb_of_not_built, execRdlb_of_beyond, fun _ => execRdlb_of_entry⟩⟩

/-! #### RDSB, the case its operand chooses -/

theorem execRdsb_of_not_built {s : State} (hi : s.index ≠ .built) :
    exec .rdsb s = .next (s.raiseError .notBuilt) := by
  rcases execRdsb_cases s with ⟨-, h⟩ | ⟨hbuilt, -⟩ | ⟨hbuilt, -⟩
  · exact h
  all_goals exact absurd hbuilt hi

theorem execRdsb_of_beyond {s : State} (hi : s.index = .built) (hj : s.nbits.toNat / s.sbs.toNat < s.opa.toNat) :
    exec .rdsb s = .next (s.raiseError .tableIndex) := by
  rcases execRdsb_cases s with ⟨hindex, -⟩ | ⟨-, -, h⟩ | ⟨-, hle, -⟩
  · exact absurd hi hindex
  · exact h
  · exact absurd hj (Nat.not_lt.2 hle)

theorem execRdsb_of_entry {s : State} {v : Word} (hi : s.index = .built)
    (hj : s.opa.toNat ≤ s.nbits.toNat / s.sbs.toNat) (hv : s.sb[s.opa.toNat]? = some v) :
    exec .rdsb s = .next (s.complete v) := by
  have hentry : s.sbEntry s.opa.toNat = v := by
    rw [State.sbEntry, List.getD_eq_getElem?_getD, hv, Option.getD_some]
  rcases execRdsb_cases s with ⟨hindex, -⟩ | ⟨-, hgt, -⟩ | ⟨-, -, h⟩
  · exact absurd hi hindex
  · exact absurd hj (Nat.not_le.2 hgt)
  · rw [h, hentry]

/-- Settles O19: one rule a check, and the defined entry. -/
theorem rdsbReturnsSmallBlockEntry : Obligations.RdsbReturnsSmallBlockEntry :=
  ⟨decode_encode .rdsb, fun _ => ⟨execRdsb_of_not_built, execRdsb_of_beyond, fun _ => execRdsb_of_entry⟩⟩

/-! #### The entries of a built index (R145, R146) -/

/-- A command has one answer to its operands. -/
theorem answers_unique {i : Instr} {s : State} {a b v w : Word} (hv : Spec.answers i s a b v)
    (hw : Spec.answers i s a b w) : v = w := by
  obtain ⟨t, ht, -, rfl⟩ := hv
  obtain ⟨u, hu, -, rfl⟩ := hw
  cases ht.symm.trans hu
  rfl

section
variable {s : State} (h : s.Inv) (hi : s.index = .built)
include h hi

theorem State.Inv.lb_getElem? {k : Nat} (hk : k ≤ s.nbits.toNat / s.lbs.toNat) :
    s.lb[k]? = some (toWord (s.lbSnapshot k)) := by
  have hlt : k < s.lastLb + 1 := Nat.lt_succ_of_le hk
  rw [← h.fillTables_lb_of_built hi, State.fillTables_lb, List.getElem?_map, List.getElem?_range hlt, Option.map_some]

theorem State.Inv.sb_getElem? {j : Nat} (hj : j ≤ s.nbits.toNat / s.sbs.toNat) :
    s.sb[j]? = some (toWord (s.sbSnapshot j)) := by
  have hlt : j < s.lastSb + 1 := Nat.lt_succ_of_le hj
  rw [← h.fillTables_sb_of_built hi, State.fillTables_sb, List.getElem?_map, List.getElem?_range hlt, Option.map_some]

theorem State.Inv.rdlb_answers {k : Word} (hk : k.toNat ≤ s.nbits.toNat / s.lbs.toNat) (b : Word) :
    Spec.answers .rdlb s k b (toWord (s.lbSnapshot k.toNat)) :=
  ⟨_, execRdlb_of_entry (s := { s with opa := k, opb := b }) hi hk (h.lb_getElem? hi hk), rfl, rfl⟩

theorem State.Inv.rdsb_answers {j : Word} (hj : j.toNat ≤ s.nbits.toNat / s.sbs.toNat) (b : Word) :
    Spec.answers .rdsb s j b (toWord (s.sbSnapshot j.toNat)) :=
  ⟨_, execRdsb_of_entry (s := { s with opa := j, opb := b }) hi hj (h.sb_getElem? hi hj), rfl, rfl⟩

end

/-- Settles O20: the entry as the invariant gives it; no position lies below the first. -/
theorem largeBlockReadoutIsSnapshot : Obligations.LargeBlockReadoutIsSnapshot := by
  intro s k h hi hk
  have hfirst : s.lbSnapshot (0#32).toNat = 0 := by simp [State.lbSnapshot, State.ones]
  constructor
  · rw [← s.toWord_ones]
    exact h.rdlb_answers hi hk s.opb
  · have hzero := h.rdlb_answers hi (k := 0#32) (Nat.zero_le _) s.opb
    rwa [hfirst] at hzero

/-- Settles O21: the entry as the invariant gives it, and what is known of its value. -/
theorem smallBlockReadoutIsSnapshot : Obligations.SmallBlockReadoutIsSnapshot := by
  rintro s j _ h hi rfl hj
  obtain ⟨hlbs, -, hmod⟩ := h.blocks_valid (by simp [hi])
  have hentry := h.rdsb_answers hi hj s.opb
  refine ⟨?_, fun hboundary => ?_, fun v hv => ?_⟩
  · rw [← s.toWord_ones]
    exact hentry
  · rwa [State.sbSnapshot_of_boundary hmod hboundary] at hentry
  · calc v.toNat = (toWord (s.sbSnapshot j.toNat)).toNat := congrArg BitVec.toNat (answers_unique hv hentry)
      _ ≤ s.sbSnapshot j.toNat := (BitVec.toNat_ofNat ..).trans_le (Nat.mod_le _ _)
      _ ≤ s.lbs.toNat - s.sbs.toNat := State.sbSnapshot_le hmod hlbs _

end Sys2Proof.Machine

/-! ### Proofs: the index (42_index_build.md): the single-pass build (R148) -/

namespace Sys2Proof.Machine

/-- Where small block `j` ends, the last one at N. -/
def State.smallBlockEnd (s : State) (j : Nat) : Nat := min (j * s.sbs.toNat + s.sbs.toNat) s.bitLen

/-- What the pass holds after small block `j`, by the definitions of 42_index_build.md R145 and R146. -/
def State.passAfter (s : State) (j : Nat) : BuildPass where
  total := s.ones 0 (s.smallBlockEnd j)
  run := s.ones (j / s.blockRatio * s.lbs.toNat) (s.smallBlockEnd j)
  lb := (List.range (j / s.blockRatio + 1)).map s.lbSnapshot
  sb := (List.range (j + 1)).map s.sbSnapshot

/-- At a large-block boundary the pass writes its total and starts a new run. -/
theorem State.buildPassStep_of_boundary {s : State} (b : BuildPass) {j : Nat}
    (hp : j * s.sbs.toNat % s.lbs.toNat = 0) :
    s.buildPassStep b j =
      { total := b.total + s.ones (j * s.sbs.toNat) (s.smallBlockEnd j)
        run := s.ones (j * s.sbs.toNat) (s.smallBlockEnd j)
        lb := b.lb ++ [b.total]
        sb := b.sb ++ [0] } := by
  simp [State.buildPassStep, hp, State.smallBlockEnd]

/-- Inside a large block the run goes on. -/
theorem State.buildPassStep_of_inside {s : State} (b : BuildPass) {j : Nat}
    (hp : j * s.sbs.toNat % s.lbs.toNat ≠ 0) :
    s.buildPassStep b j =
      { total := b.total + s.ones (j * s.sbs.toNat) (s.smallBlockEnd j)
        run := b.run + s.ones (j * s.sbs.toNat) (s.smallBlockEnd j)
        lb := b.lb
        sb := b.sb ++ [b.run] } := by
  simp [State.buildPassStep, hp, State.smallBlockEnd]

/-- Each small block the pass visits starts where the one before it ends. -/
theorem State.smallBlockEnd_of_next {s : State} {j : Nat} (hj : j + 1 ≤ s.lastSb) :
    s.smallBlockEnd j = (j + 1) * s.sbs.toNat := by
  rw [State.smallBlockEnd, ← Nat.succ_mul]
  exact Nat.min_eq_left (Nat.mul_le_of_le_div _ _ _ hj)

/-- A small block the pass visits starts within the bit-vector. -/
theorem State.le_smallBlockEnd {s : State} {j : Nat} (hj : j ≤ s.lastSb) :
    j * s.sbs.toNat ≤ s.smallBlockEnd j :=
  Nat.le_min.2 ⟨Nat.le_add_right _ _, Nat.mul_le_of_le_div _ _ _ hj⟩

/-- Counting on over small block `j`. -/
theorem State.ones_add_smallBlock {s : State} {lo j : Nat} (hlo : lo ≤ j * s.sbs.toNat) (hj : j ≤ s.lastSb) :
    s.ones lo (j * s.sbs.toNat) + s.ones (j * s.sbs.toNat) (s.smallBlockEnd j) = s.ones lo (s.smallBlockEnd j) :=
  (s.count_split true hlo (State.le_smallBlockEnd hj)).symm

/-- The table with one entry more. -/
theorem map_range_succ {α : Type} (f : Nat → α) (n : Nat) :
    (List.range (n + 1)).map f = (List.range n).map f ++ [f n] := by
  rw [List.range_succ, List.map_append, List.map_singleton]

/-- The first small block starts the first large block. -/
theorem State.buildPassStep_zero (s : State) :
    s.buildPassStep { total := 0, run := 0, lb := [], sb := [] } 0 = s.passAfter 0 := by
  rw [State.buildPassStep_of_boundary _ (by simp)]
  simp [State.passAfter, State.lbSnapshot, State.sbSnapshot, State.ones]

section
variable {s : State} (hmod : s.lbs.toNat % s.sbs.toNat = 0)
include hmod

/-- How far into its large block small block `j` starts: at 0 exactly when `r` divides `j`. -/
theorem State.smallBlock_start_mod (j : Nat) :
    j * s.sbs.toNat % s.lbs.toNat = j % s.blockRatio * s.sbs.toNat := by
  rw [← State.blockRatio_mul_sbs hmod, Nat.mul_mod_mul_right]

/-- The pass over a small block that starts a large block. -/
theorem State.buildPassStep_passAfter_of_boundary {j : Nat} (hj : j + 1 ≤ s.lastSb)
    (hb : (j + 1) % s.blockRatio = 0) : s.buildPassStep (s.passAfter j) (j + 1) = s.passAfter (j + 1) := by
  have hnext : (j + 1) / s.blockRatio = j / s.blockRatio + 1 := Nat.succ_div_of_mod_eq_zero hb
  have hstart := State.largeBlock_start_of_boundary hmod hb
  have hlb : s.lbSnapshot (j / s.blockRatio + 1) = s.ones 0 ((j + 1) * s.sbs.toNat) := by
    rw [State.lbSnapshot, ← hnext, hstart]
  have hsb := State.sbSnapshot_of_boundary hmod hb
  rw [State.buildPassStep_of_boundary _ (by rw [State.smallBlock_start_mod hmod, hb, Nat.zero_mul])]
  simp only [State.passAfter, State.smallBlockEnd_of_next hj, State.ones_add_smallBlock (Nat.zero_le _) hj, hstart]
  rw [hnext, map_range_succ s.lbSnapshot (j / s.blockRatio + 1), hlb,
    map_range_succ s.sbSnapshot (j + 1), hsb]

/-- The pass over a small block inside a large block. -/
theorem State.buildPassStep_passAfter_of_inside (hsbs : 1 ≤ s.sbs.toNat) {j : Nat} (hj : j + 1 ≤ s.lastSb)
    (hb : (j + 1) % s.blockRatio ≠ 0) : s.buildPassStep (s.passAfter j) (j + 1) = s.passAfter (j + 1) := by
  have hsame : (j + 1) / s.blockRatio = j / s.blockRatio := Nat.succ_div_of_mod_ne_zero hb
  have hstart : j / s.blockRatio * s.lbs.toNat ≤ (j + 1) * s.sbs.toNat := by
    rw [State.smallBlock_start hmod, hsame]
    exact Nat.le_add_right _ _
  have hinside : (j + 1) % s.blockRatio * s.sbs.toNat ≠ 0 := Nat.mul_ne_zero hb (Nat.ne_of_gt hsbs)
  rw [State.buildPassStep_of_inside _ (by rwa [State.smallBlock_start_mod hmod])]
  simp only [State.passAfter, State.smallBlockEnd_of_next hj, State.ones_add_smallBlock (Nat.zero_le _) hj,
    State.ones_add_smallBlock hstart hj, hsame]
  rw [map_range_succ s.sbSnapshot (j + 1), State.sbSnapshot, hsame]

/-- After each small block the pass holds what R145 and R146 define. -/
theorem State.foldl_buildPassStep (hsbs : 1 ≤ s.sbs.toNat) {j : Nat} (hj : j ≤ s.lastSb) :
    (List.range (j + 1)).foldl s.buildPassStep { total := 0, run := 0, lb := [], sb := [] } = s.passAfter j := by
  induction j with
  | zero => exact s.buildPassStep_zero
  | succ j ih =>
    rw [List.range_succ, List.foldl_append, ih (Nat.le_of_succ_le hj), List.foldl_cons, List.foldl_nil]
    by_cases hb : (j + 1) % s.blockRatio = 0
    · exact State.buildPassStep_passAfter_of_boundary hmod hj hb
    · exact State.buildPassStep_passAfter_of_inside hmod hsbs hj hb

/-- The last small block lies in the last large block. -/
theorem State.lastSb_div_blockRatio : s.lastSb / s.blockRatio = s.lastLb := by
  rw [State.lastSb, Nat.div_div_eq_div_mul, Nat.mul_comm, State.blockRatio_mul_sbs hmod, State.lastLb]

end

/-- The last small block ends at N. -/
theorem State.smallBlockEnd_lastSb {s : State} (hsbs : 1 ≤ s.sbs.toNat) : s.smallBlockEnd s.lastSb = s.bitLen := by
  rw [State.smallBlockEnd, ← Nat.succ_mul]
  exact Nat.min_eq_right (Nat.lt_mul_of_div_lt (Nat.lt_succ_self _) hsbs).le

/-- Settles O22: by induction on the small blocks; the last one ends at N and lies in the last large block. -/
theorem singlePassBuildEqualsDefinition : Obligations.SinglePassBuildEqualsDefinition := by
  intro s _ hsbs hmod
  have hpass : s.buildPass = s.passAfter s.lastSb := State.foldl_buildPassStep hmod hsbs le_rfl
  rw [hpass, State.passAfter, State.lastSb_div_blockRatio hmod, State.smallBlockEnd_lastSb hsbs]
  exact ⟨List.map_congr_left fun _ _ => s.count_eq_spec true _ _,
    List.map_congr_left fun _ _ => s.count_eq_spec true _ _,
    s.count_eq_spec true _ _⟩

end Sys2Proof.Machine

/-! ### Proofs: the index (42_index_build.md): what commands leave of it (R140, R149) -/

namespace Sys2Proof.Machine

/-- Only CLEAR and CREATE write the geometry registers. -/
theorem commandChange_geometry {i : Instr} (hclear : i ≠ .clear) (hcreate : i ≠ .create) (s : State) :
    (commandChange i s).lenbytes = s.lenbytes ∧ (commandChange i s).nbits = s.nbits ∧
      (commandChange i s).lbs = s.lbs ∧ (commandChange i s).sbs = s.sbs := by
  cases i with
  | clear => exact absurd rfl hclear
  | create => exact absurd rfl hcreate
  | popcnt8 | popcnt32 | wrbyte | rdbyte | build | rank | select | rdlb | rdsb => exact ⟨rfl, rfl, rfl, rfl⟩

/-- Only CLEAR, CREATE and BUILD touch the tables. -/
theorem commandChange_tables {i : Instr} (hclear : i ≠ .clear) (hcreate : i ≠ .create) (hbuild : i ≠ .build)
    (s : State) : (commandChange i s).lb = s.lb ∧ (commandChange i s).sb = s.sb := by
  cases i with
  | clear => exact absurd rfl hclear
  | create => exact absurd rfl hcreate
  | build => exact absurd rfl hbuild
  | popcnt8 | popcnt32 | wrbyte | rdbyte | rank | select | rdlb | rdsb => exact ⟨rfl, rfl⟩

/-- Settles O36: an error completion keeps the index; a success leaves it as the command's change does. -/
theorem geometryAndTableFrame : Obligations.GeometryAndTableFrame := by
  intro i s t hx
  rcases exec_next_cases hx with ⟨c, -, rfl⟩ | ⟨-, v, rfl⟩
  · exact ⟨fun _ _ => ⟨rfl, rfl, rfl, rfl⟩, fun _ _ _ => ⟨rfl, rfl⟩⟩
  · exact ⟨fun hclear hcreate => commandChange_geometry hclear hcreate s,
      fun hclear hcreate hbuild => commandChange_tables hclear hcreate hbuild s⟩

end Sys2Proof.Machine

/-! ### Proofs: the queries (43_rank_select.md): RANK and SELECT, the case their checks choose (R170, R173) -/

namespace Sys2Proof.Machine

/-- A register value stands for one bit at most (10_state.md R25). -/
theorem bit_unique {v : Word} {b b' : Bool} (hb : v.toNat = b.toNat) (hb' : v.toNat = b'.toNat) : b = b' :=
  Option.some.inj ((bitOperand_of_eq hb).symm.trans (bitOperand_of_eq hb'))

/-! #### RANK -/

theorem execRank_of_not_built {s : State} (hi : s.index ≠ .built) :
    exec .rank s = .next (s.raiseError .notBuilt) := by
  rcases execRank_cases s with ⟨-, h⟩ | ⟨hbuilt, -⟩ | ⟨_, hbuilt, -⟩ | ⟨_, hbuilt, -⟩
  · exact h
  all_goals exact absurd hbuilt hi

section
variable {s : State} (hi : s.index = .built)
include hi

theorem execRank_of_bad_bit (hb : 1 < s.opb.toNat) : exec .rank s = .next (s.raiseError .badBit) := by
  rcases execRank_cases s with ⟨hindex, -⟩ | ⟨-, -, h⟩ | ⟨b, -, hbit, -⟩ | ⟨b, -, hbit, -⟩
  · exact absurd hi hindex
  · exact h
  all_goals exact absurd (hbit.trans_le b.toNat_le) (Nat.not_le.2 hb)

theorem execRank_of_beyond (hb : s.opb.toNat ≤ 1) (ha : s.nbits.toNat < s.opa.toNat) :
    exec .rank s = .next (s.raiseError .rankIndex) := by
  rcases execRank_cases s with ⟨hindex, -⟩ | ⟨-, hgt, -⟩ | ⟨_, -, -, -, h⟩ | ⟨_, -, -, hle, -⟩
  · exact absurd hi hindex
  · exact absurd hb (Nat.not_le.2 hgt)
  · exact h
  · exact absurd ha (Nat.not_lt.2 hle)

theorem execRank_of_valid {b : Bool} (hb : s.opb.toNat = b.toNat) (ha : s.opa.toNat ≤ s.nbits.toNat) :
    exec .rank s = .next (s.complete (toWord (s.count b 0 s.opa.toNat))) := by
  rcases execRank_cases s with ⟨hindex, -⟩ | ⟨-, hgt, -⟩ | ⟨_, -, -, hgt, -⟩ | ⟨b', -, hb', -, h⟩
  · exact absurd hi hindex
  · exact absurd (hb.trans_le b.toNat_le) (Nat.not_le.2 hgt)
  · exact absurd ha (Nat.not_le.2 hgt)
  · rwa [bit_unique hb hb']

end

/-- The 0 bits of a range are its other positions (00_scope.md R14). -/
theorem State.count_false (s : State) (lo hi : Nat) : s.count false lo hi = hi - lo - s.count true lo hi :=
  Nat.eq_sub_of_add_eq (s.count_false_add_true lo hi)

/-- Settles O26: one rule a check, and the count where all pass. -/
theorem rankCountsBitsBeforeIndex : Obligations.RankCountsBitsBeforeIndex := by
  refine ⟨decode_encode .rank, fun s => ⟨execRank_of_not_built, execRank_of_bad_bit, execRank_of_beyond,
    fun b hi hb ha => ?_, ?_⟩⟩
  · rw [← State.count_eq_spec]
    exact execRank_of_valid hi hb ha
  · rw [← State.count_eq_spec, ← State.count_eq_spec]
    exact s.count_false 0 s.opa.toNat

/-! #### SELECT -/

theorem execSelect_of_not_built {s : State} (hi : s.index ≠ .built) :
    exec .select s = .next (s.raiseError .notBuilt) := by
  rcases execSelect_cases s with ⟨-, h⟩ | ⟨hbuilt, -⟩ | ⟨_, hbuilt, -⟩ | ⟨_, hbuilt, -⟩
  · exact h
  all_goals exact absurd hbuilt hi

section
variable {s : State} (hi : s.index = .built)
include hi

theorem execSelect_of_bad_bit (hb : 1 < s.opb.toNat) : exec .select s = .next (s.raiseError .badBit) := by
  rcases execSelect_cases s with ⟨hindex, -⟩ | ⟨-, -, h⟩ | ⟨b, -, hbit, -⟩ | ⟨b, -, hbit, -⟩
  · exact absurd hi hindex
  · exact h
  all_goals exact absurd (hbit.trans_le b.toNat_le) (Nat.not_le.2 hb)

variable {b : Bool} (hb : s.opb.toNat = b.toNat)
include hb

theorem execSelect_of_bad_ordinal (ha : s.opa.toNat = 0 ∨ s.count b 0 s.nbits.toNat < s.opa.toNat) :
    exec .select s = .next (s.raiseError .selectOrdinal) := by
  rcases execSelect_cases s with ⟨hindex, -⟩ | ⟨-, hgt, -⟩ | ⟨_, -, -, -, h⟩ | ⟨b', -, hb', hpos, hle, -⟩
  · exact absurd hi hindex
  · exact absurd (hb.trans_le b.toNat_le) (Nat.not_le.2 hgt)
  · exact h
  · cases bit_unique hb hb'
    omega

theorem execSelect_of_valid (hpos : 1 ≤ s.opa.toNat) (hle : s.opa.toNat ≤ s.count b 0 s.nbits.toNat) :
    exec .select s = .next (s.complete (toWord (s.selectPos b s.opa.toNat))) := by
  rcases execSelect_cases s with ⟨hindex, -⟩ | ⟨-, hgt, -⟩ | ⟨b', -, hb', hbad, -⟩ | ⟨b', -, hb', -, -, h⟩
  · exact absurd hi hindex
  · exact absurd (hb.trans_le b.toNat_le) (Nat.not_le.2 hgt)
  · cases bit_unique hb hb'
    omega
  · rwa [bit_unique hb hb']

end

/-- Settles O27: one rule a check, and the least position where all pass. -/
theorem selectFindsLeastPosition : Obligations.SelectFindsLeastPosition := by
  refine ⟨decode_encode .select, fun s => ?_⟩
  simp only [← State.count_eq_spec]
  exact ⟨execSelect_of_not_built, execSelect_of_bad_bit, fun _ hi hb => execSelect_of_bad_ordinal hi hb,
    fun b hi hb hpos hle => ⟨_, s.selectPos_isLeast b hpos hle, execSelect_of_valid hi hb hpos hle⟩⟩

end Sys2Proof.Machine

/-! ### Proofs: the queries (43_rank_select.md): the properties of rank and select (R172, R177) -/

namespace Sys2Proof.Machine

/-! #### What the two queries answer -/

/-- A command that succeeds has its RESULT as its one answer. -/
theorem answers_iff_of_complete {i : Instr} {s t : State} {a b r : Word}
    (h : exec i { s with opa := a, opb := b } = .next (t.complete r)) (v : Word) :
    Spec.answers i s a b v ↔ v = r := by
  constructor
  · exact fun hv => answers_unique hv ⟨_, h, rfl, rfl⟩
  · rintro rfl
    exact ⟨_, h, rfl, rfl⟩

/-- A command that fails has no answer. -/
theorem not_answers_of_error {i : Instr} {s t : State} {a b : Word} {c : ErrorCause}
    (h : exec i { s with opa := a, opb := b } = .next (t.raiseError c)) (v : Word) : ¬ Spec.answers i s a b v := by
  rintro ⟨u, hx, he, -⟩
  cases h.symm.trans hx
  simp at he

/-- The operands do not matter to a count of the bit-vector. -/
@[simp] theorem State.count_with_operands (s : State) (x y : Word) (b : Bool) (lo hi : Nat) :
    State.count { s with opa := x, opb := y } b lo hi = s.count b lo hi :=
  State.count_of_ram_eq (s := { s with opa := x, opb := y }) (t := s) rfl b lo hi

/-- A count of positions below a register value is one too. -/
theorem State.toWord_count_toNat (s : State) (b : Bool) (lo : Nat) {hi : Nat} (hhi : hi < 2 ^ 32) :
    (toWord (s.count b lo hi)).toNat = s.count b lo hi :=
  toWord_toNat ((s.count_le b lo hi).trans_lt ((Nat.sub_le _ _).trans_lt hhi))

section
variable {s : State} {b : Bool} {bit : Word} (hi : s.index = .built) (hbit : bit.toNat = b.toNat)
include hi hbit

/-- RANK answers up to N, with the count of the bit below the index (43_rank_select.md R170). -/
theorem rank_answers_iff (i v : Word) :
    Spec.answers .rank s i bit v ↔ i.toNat ≤ s.nbits.toNat ∧ v.toNat = s.count b 0 i.toNat := by
  by_cases hle : i.toNat ≤ s.nbits.toNat
  · have hx := execRank_of_valid (s := { s with opa := i, opb := bit }) hi hbit hle
    rw [answers_iff_of_complete hx, ← BitVec.toNat_inj, State.count_with_operands, s.toWord_count_toNat b 0 i.isLt]
    exact (and_iff_right hle).symm
  · have hone : bit.toNat ≤ 1 := hbit.trans_le b.toNat_le
    have hx := execRank_of_beyond (s := { s with opa := i, opb := bit }) hi hone (Nat.lt_of_not_le hle)
    exact iff_of_false (not_answers_of_error hx v) fun h => hle h.1

/-- SELECT fails on every other ordinal than those from 1 to the total (43_rank_select.md R173). -/
theorem execSelect_with_bad_ordinal {n : Word} (hn : n.toNat = 0 ∨ s.count b 0 s.nbits.toNat < n.toNat) :
    exec .select { s with opa := n, opb := bit } =
      .next (State.raiseError .selectOrdinal { s with opa := n, opb := bit }) :=
  execSelect_of_bad_ordinal (s := { s with opa := n, opb := bit }) hi hbit (by rwa [State.count_with_operands])

/-- SELECT answers the ordinals from 1 to the total, with the least position whose count is the ordinal
(43_rank_select.md R173). -/
theorem select_answers_iff (n p : Word) :
    Spec.answers .select s n bit p ↔ (1 ≤ n.toNat ∧ n.toNat ≤ s.count b 0 s.nbits.toNat) ∧
      IsLeast { p | p < s.nbits.toNat ∧ s.count b 0 (p + 1) = n.toNat } p.toNat := by
  by_cases hn : 1 ≤ n.toNat ∧ n.toNat ≤ s.count b 0 s.nbits.toNat
  · have hx := execSelect_of_valid (s := { s with opa := n, opb := bit }) hi hbit hn.1
      (by rw [State.count_with_operands]; exact hn.2)
    have hpos : State.selectPos { s with opa := n, opb := bit } b n.toNat = s.selectPos b n.toNat :=
      State.selectPos_of_ram_eq (s := s) (t := { s with opa := n, opb := bit }) rfl rfl b n.toNat
    have hleast := s.selectPos_isLeast b hn.1 hn.2
    have hword : s.selectPos b n.toNat < 2 ^ 32 := hleast.1.1.trans s.nbits.isLt
    rw [answers_iff_of_complete hx, ← BitVec.toNat_inj, hpos, toWord_toNat hword]
    exact ⟨fun hp => ⟨hn, hp ▸ hleast⟩, fun hp => hp.2.unique hleast⟩
  · have hx := execSelect_with_bad_ordinal hi hbit (n := n) (by omega)
    exact iff_of_false (not_answers_of_error hx p) fun h => hn h.1

end

/-- Below N the next position is a register value. -/
theorem toNat_succ_of_lt {i n : Word} (h : i.toNat < n.toNat) : (i + 1#32).toNat = i.toNat + 1 := by
  have hlt : i.toNat + 1 < 2 ^ 32 := (Nat.succ_le_of_lt h).trans_lt n.isLt
  rw [BitVec.toNat_add, BitVec.toNat_one (by decide), Nat.mod_eq_of_lt hlt]

/-! #### Rank -/

theorem ofNat_bit_toNat (b : Bool) : (BitVec.ofNat 32 b.toNat).toNat = b.toNat := by
  cases b <;> rfl

/-- Settles O28: counts below 0 and below N, one position more, and 0 bits with 1 bits. -/
theorem rankProperties : Obligations.RankProperties := by
  intro s hi
  simp only [← State.count_eq_spec, ← State.bit_eq_bitAt]
  have hrank (b : Bool) := rank_answers_iff (b := b) hi (ofNat_bit_toNat b)
  refine ⟨fun b => ?_, fun b => ?_, fun b i v v' hlt hv hv' => ?_, fun i v0 v1 hv0 hv1 => ?_⟩
  · exact (hrank b _ _).2 ⟨Nat.zero_le _, (s.count_self b 0).symm⟩
  · exact (hrank b _ _).2 ⟨le_rfl, s.toWord_count_toNat b 0 s.nbits.isLt⟩
  · rw [((hrank b _ _).1 hv').2, ((hrank b _ _).1 hv).2, toNat_succ_of_lt hlt]
    exact s.count_succ b (Nat.zero_le _)
  · rw [((hrank false _ _).1 hv0).2, ((hrank true _ _).1 hv1).2]
    exact s.count_false_add_true 0 i.toNat

/-! #### Select -/

/-- The n-th occurrence holds the bit, with n − 1 before it: were it no occurrence, the position before it would do, or
the count would be 0. -/
theorem State.isLeast_bit_and_count {s : State} {b : Bool} {n p : Nat}
    (hp : IsLeast { p | p < s.nbits.toNat ∧ s.count b 0 (p + 1) = n } p) (hn : 1 ≤ n) :
    s.bit p = b ∧ s.count b 0 p + 1 = n := by
  obtain ⟨⟨hlt, hcount⟩, hleast⟩ := hp
  have hsucc := s.count_succ b p.zero_le
  by_cases hbit : s.bit p = b
  · rw [if_pos hbit] at hsucc
    exact ⟨hbit, hsucc.symm.trans hcount⟩
  · rw [if_neg hbit, Nat.add_zero, hcount] at hsucc
    cases p with
    | zero => simp at hsucc; omega
    | succ q => exact absurd (hleast ⟨Nat.lt_of_succ_lt hlt, hsucc.symm⟩) (Nat.not_succ_le_self q)

/-- Counts reach a smaller ordinal at a smaller position. -/
theorem State.lt_of_count_lt {s : State} {b : Bool} {p q : Nat} (h : s.count b 0 p < s.count b 0 q) : p < q :=
  lt_of_not_ge fun hle => absurd (s.count_mono b hle) (Nat.not_le.2 h)

/-- The position of an ordinal that has one is a register value. -/
theorem State.exists_word_isLeast (s : State) {b : Bool} {n : Nat} (hn : 1 ≤ n)
    (htotal : n ≤ s.count b 0 s.nbits.toNat) :
    ∃ p : Word, IsLeast { p | p < s.nbits.toNat ∧ s.count b 0 (p + 1) = n } p.toNat := by
  have hleast := s.selectPos_isLeast b hn htotal
  refine ⟨toWord (s.selectPos b n), ?_⟩
  rwa [toWord_toNat (hleast.1.1.trans s.nbits.isLt)]

/-- Settles O29: what makes a position the least one with its count, in terms of the ranks beside it. -/
theorem selectProperties : Obligations.SelectProperties := by
  intro s b bit hi hbit
  simp only [← State.count_eq_spec, ← State.bit_eq_bitAt]
  have hrank := rank_answers_iff hi hbit
  have hselect := select_answers_iff hi hbit
  refine ⟨fun n hn htotal => ?_, fun n m p q hlt hp hq => ?_, fun n hn => ?_⟩
  · obtain ⟨p, hleast⟩ := s.exists_word_isLeast hn htotal
    obtain ⟨hpbit, hbefore⟩ := State.isLeast_bit_and_count hleast hn
    have hanswer := (hselect n p).2 ⟨⟨hn, htotal⟩, hleast⟩
    obtain ⟨⟨hlt, hcount⟩, hmin⟩ := hleast
    have hpred : (n - 1#32).toNat = s.count b 0 p.toNat := by
      rw [BitVec.toNat_sub_of_le hn, ← hbefore]
      rfl
    refine ⟨p, hanswer, hlt, (hrank _ _).2 ?_, (hrank _ _).2 ⟨hlt.le, hpred⟩, hpbit, fun q hq hrankq => ?_⟩
    · rw [toNat_succ_of_lt hlt]
      exact ⟨hlt, hcount.symm⟩
    · have hqcount := ((hrank _ _).1 hrankq).2
      rw [toNat_succ_of_lt hq] at hqcount
      exact absurd (hmin ⟨hq.trans hlt, hqcount.symm⟩) (Nat.not_le.2 hq)
  · obtain ⟨-, ⟨-, hpn⟩, -⟩ := (hselect n p).1 hp
    obtain ⟨-, ⟨-, hqm⟩, -⟩ := (hselect m q).1 hq
    exact Nat.lt_of_succ_lt_succ (State.lt_of_count_lt (hpn.trans_lt (hlt.trans_eq hqm.symm)))
  · exact ⟨_, execSelect_with_bad_ordinal hi hbit hn, rfl⟩

end Sys2Proof.Machine

/-! ### Proofs: the queries (43_rank_select.md): rank from the tables (R171) -/

namespace Sys2Proof.Machine

/-- The count of a bit from the count of the 1 bits, as the tables give it (00_scope.md R14). -/
theorem State.count_eq_ite (s : State) (b : Bool) (lo hi : Nat) :
    s.count b lo hi = if b then s.count true lo hi else hi - lo - s.count true lo hi := by
  cases b
  · exact s.count_false lo hi
  · rfl

section
variable {s : State} (h : s.Inv) (hi : s.index = .built)
include h hi

/-- Every large-block boundary up to N has a defined entry, the 1 bits below it (42_index_build.md R145). -/
theorem State.Inv.lbEntry_toNat {k : Nat} (hk : k ≤ s.lastLb) :
    (s.lbEntry k).toNat = s.count true 0 (k * s.lbs.toNat) := by
  have hboundary : k * s.lbs.toNat ≤ s.nbits.toNat := Nat.mul_le_of_le_div _ _ _ hk
  rw [State.lbEntry, List.getD_eq_getElem?_getD, h.lb_getElem? hi hk, Option.getD_some]
  exact s.toWord_count_toNat true 0 (hboundary.trans_lt s.nbits.isLt)

/-- Every small-block boundary up to N has a defined entry, the 1 bits before it in its large block
(42_index_build.md R146). -/
theorem State.Inv.sbEntry_toNat {j : Nat} (hj : j ≤ s.lastSb) :
    (s.sbEntry j).toNat = s.count true (j / s.blockRatio * s.lbs.toNat) (j * s.sbs.toNat) := by
  have hboundary : j * s.sbs.toNat ≤ s.nbits.toNat := Nat.mul_le_of_le_div _ _ _ hj
  rw [State.sbEntry, List.getD_eq_getElem?_getD, h.sb_getElem? hi hj, Option.getD_some]
  exact s.toWord_count_toNat true _ (hboundary.trans_lt s.nbits.isLt)

/-- The three parts of rank1 count one after the other up to `i` (43_rank_select.md R171). -/
theorem State.Inv.tableRank_eq_count (b : Bool) {i : Nat} (hle : i ≤ s.bitLen) : s.tableRank b i = s.count b 0 i := by
  obtain ⟨-, -, hmod⟩ := h.blocks_valid (by simp [hi])
  have hlarge : i / s.sbs.toNat / s.blockRatio = i / s.lbs.toNat := by
    rw [Nat.div_div_eq_div_mul, Nat.mul_comm, State.blockRatio_mul_sbs hmod]
  have hstart : i / s.lbs.toNat * s.lbs.toNat ≤ i / s.sbs.toNat * s.sbs.toNat := by
    rw [State.smallBlock_start hmod, hlarge]
    exact Nat.le_add_right _ _
  have hones : (s.lbEntry (i / s.lbs.toNat)).toNat + (s.sbEntry (i / s.sbs.toNat)).toNat +
      s.ones (i / s.sbs.toNat * s.sbs.toNat) i = s.count true 0 i := by
    rw [h.lbEntry_toNat hi (Nat.div_le_div_right hle), h.sbEntry_toNat hi (Nat.div_le_div_right hle), hlarge,
      ← s.count_split true (Nat.zero_le _) hstart, State.ones,
      ← s.count_split true (Nat.zero_le _) (Nat.div_mul_le_self i _)]
  rw [s.count_eq_ite b, State.tableRank, hones, Nat.sub_zero]

end

/-- Settles O30: both tables reach the block of N, and each entry is the snapshot the invariant gives it. -/
theorem tableRankEqualsRank : Obligations.TableRankEqualsRank := by
  intro s b i h hi hle
  obtain ⟨hlb, -⟩ := List.getElem?_eq_some_iff.1 (h.lb_getElem? hi (Nat.div_le_div_right hle))
  obtain ⟨hsb, -⟩ := List.getElem?_eq_some_iff.1 (h.sb_getElem? hi (Nat.div_le_div_right hle))
  rw [← s.count_eq_spec]
  exact ⟨hlb, hsb, h.tableRank_eq_count hi b hle⟩

end Sys2Proof.Machine

/-! ### Proofs: the queries (43_rank_select.md): select from the tables (R174, R175) -/

namespace Sys2Proof.Machine

/-! #### Where the n-th occurrence is -/

/-- The n-th occurrence of `b` is at a position of [lo, hi) below N: what each stage of R174 and R175 narrows. -/
structure State.OccursIn (s : State) (b : Bool) (n lo hi : Nat) : Prop where
  before : s.count b 0 lo < n
  within : n ≤ s.count b 0 (min hi s.bitLen)

section
variable {s : State} {b : Bool} {n lo hi : Nat} (h : s.OccursIn b n lo hi)
include h

/-- The range of an occurrence may be cut anywhere: it is in the upper part if too few come before the cut. -/
theorem State.OccursIn.upper {mid : Nat} (hmid : s.count b 0 mid < n) : s.OccursIn b n mid hi := ⟨hmid, h.within⟩

theorem State.OccursIn.lower {mid : Nat} (hmid : n ≤ s.count b 0 mid) : s.OccursIn b n lo mid := by
  refine ⟨h.before, ?_⟩
  rcases Nat.le_total mid s.bitLen with hle | hge
  · rwa [Nat.min_eq_left hle]
  · rw [Nat.min_eq_right hge]
    exact h.within.trans (s.count_mono b (Nat.min_le_right _ _))

/-- Nothing occurs beyond N, so a range may be extended, and cut at N. -/
theorem State.OccursIn.extend {hi' : Nat} (hle : min hi s.bitLen ≤ hi') : s.OccursIn b n lo hi' :=
  ⟨h.before, h.within.trans (s.count_mono b (Nat.le_min.2 ⟨hle, Nat.min_le_right _ _⟩))⟩

theorem State.OccursIn.start_lt : lo < min hi s.bitLen := State.lt_of_count_lt (h.before.trans_le h.within)

/-- A masked count from the start of the range decides on which side of `mid` the occurrence is. -/
theorem State.OccursIn.maskedCount_lt_iff {mid : Nat} (hmid : lo ≤ mid) :
    s.maskedCount b lo mid < n - s.count b 0 lo ↔ s.count b 0 mid < n := by
  have hlo : lo ≤ min mid s.bitLen := Nat.le_min.2 ⟨hmid, (Nat.lt_min.1 h.start_lt).2.le⟩
  rw [State.maskedCount, Nat.lt_sub_iff_add_lt', ← s.count_split b lo.zero_le hlo]
  refine ⟨fun hlt => ?_, fun hlt => (s.count_mono b (Nat.min_le_left _ _)).trans_lt hlt⟩
  by_contra hge
  exact absurd (h.lower (Nat.le_of_not_lt hge)).within (Nat.not_le.2 hlt)

/-- What is left of the ordinal after the positions up to `mid`. -/
theorem State.OccursIn.sub_maskedCount {mid : Nat} (hmid : lo ≤ mid) (hlt : s.count b 0 mid < n) :
    n - s.count b 0 lo - s.maskedCount b lo mid = n - s.count b 0 mid := by
  have hN : mid < s.bitLen := (Nat.lt_min.1 (h.upper hlt).start_lt).2
  rw [State.maskedCount, Nat.min_eq_left hN.le, s.count_split b lo.zero_le hmid, Nat.sub_sub]

end

/-- A range of one position holds the occurrence there. -/
theorem State.OccursIn.isLeast {s : State} {b : Bool} {n p : Nat} (h : s.OccursIn b n p (p + 1)) :
    IsLeast { p | p < s.nbits.toNat ∧ s.count b 0 (p + 1) = n } p := by
  obtain ⟨-, hN⟩ := Nat.lt_min.1 h.start_lt
  obtain ⟨hbefore, hwithin⟩ := h
  rw [Nat.min_eq_left (Nat.succ_le_of_lt hN)] at hwithin
  refine ⟨⟨hN, le_antisymm ?_ hwithin⟩, fun q ⟨_, hq⟩ => ?_⟩
  · rw [s.count_succ b p.zero_le]
    split <;> omega
  · exact Nat.le_of_lt_succ (State.lt_of_count_lt (hbefore.trans_eq hq.symm))

/-! #### The binary searches (R174) -/

/-- `r` is in [lo, hi), `below` holds there, and not at the place after it, if that is in [lo, hi). -/
structure IsLastBelow (below : Nat → Bool) (lo hi r : Nat) : Prop where
  lo_le : lo ≤ r
  lt_hi : r < hi
  holds : below r = true
  fails : r + 1 < hi → below (r + 1) = false

/-- The search halves [lo, hi) until one place is left; `below` holds at its lower end, and not at an upper end it has
moved. -/
theorem lastBelow_spec {below : Nat → Bool} {fuel lo hi : Nat} (hfuel : hi - lo ≤ 2 ^ fuel) (hlt : lo < hi)
    (hlo : below lo = true) : IsLastBelow below lo hi (lastBelow below fuel lo hi) := by
  induction fuel generalizing lo hi with
  | zero =>
    rw [lastBelow]
    exact ⟨le_rfl, hlt, hlo, fun hnext => by omega⟩
  | succ fuel ih =>
    rw [Nat.pow_succ] at hfuel
    rw [lastBelow]
    split
    · exact ⟨le_rfl, hlt, hlo, fun hnext => by omega⟩
    · split
      · next hmid =>
        obtain ⟨hle, hr, hholds, hfails⟩ := ih (lo := (lo + hi) / 2) (hi := hi) (by omega) (by omega) hmid
        exact ⟨by omega, hr, hholds, hfails⟩
      · next hmid =>
        obtain ⟨hle, hr, hholds, hfails⟩ := ih (lo := lo) (hi := (lo + hi) / 2) (by omega) (by omega) hlo
        refine ⟨hle, by omega, hholds, fun _ => ?_⟩
        rcases Nat.lt_or_eq_of_le (Nat.succ_le_of_lt hr) with hin | hend
        · exact hfails hin
        · rw [← hend] at hmid
          exact Bool.eq_false_of_not_eq_true hmid

/-- Where `below` says of each block of size `d` whether too few occurrences come before it, the search finds the block
that holds the occurrence. -/
theorem State.OccursIn.search {s : State} {b : Bool} {n d lo hi fuel : Nat} {below : Nat → Bool}
    (h : s.OccursIn b n (lo * d) (hi * d)) (hfuel : hi - lo ≤ 2 ^ fuel)
    (hbelow : ∀ i, lo ≤ i → i < hi → (below i = true ↔ s.count b 0 (i * d) < n)) :
    lo ≤ lastBelow below fuel lo hi ∧ lastBelow below fuel lo hi < hi ∧
      s.OccursIn b n (lastBelow below fuel lo hi * d) ((lastBelow below fuel lo hi + 1) * d) := by
  have hlohi : lo < hi := Nat.lt_of_mul_lt_mul_right (Nat.lt_min.1 h.start_lt).1
  obtain ⟨hle, hlt, hholds, hfails⟩ := lastBelow_spec hfuel hlohi ((hbelow lo le_rfl hlohi).2 h.before)
  refine ⟨hle, hlt, ?_⟩
  generalize lastBelow below fuel lo hi = r at *
  have hupper := h.upper ((hbelow r hle hlt).1 hholds)
  rcases Nat.lt_or_eq_of_le (show r + 1 ≤ hi from hlt) with hin | hend
  · have hnext := (hbelow (r + 1) (by omega) hin).not.1 (Bool.eq_false_iff.1 (hfails hin))
    exact hupper.lower (Nat.le_of_not_lt hnext)
  · rwa [hend]

/-- Step 1 of 43_rank_select.md R174: the large block of the n-th occurrence. -/
def State.searchLarge (s : State) (b : Bool) (n : Nat) : Nat :=
  lastBelow (fun k => s.largeCount b k < n) 33 0 (s.lastLb + 1)

/-- Step 2 of 43_rank_select.md R174: the small block, in large block `k`, of the m-th occurrence from its start. -/
def State.searchSmall (s : State) (b : Bool) (k m : Nat) : Nat :=
  lastBelow (fun j => s.smallCount b j < m) 33 (k * s.blockRatio)
    (min (k * s.blockRatio + s.blockRatio - 1) s.lastSb + 1)

/-- The stages of the table-based select, each going on from what the one before it found. -/
theorem State.tableSelect_of_stages {s : State} {b : Bool} {n k j q m : Nat} (hk : s.searchLarge b n = k)
    (hj : s.searchSmall b k (n - s.largeCount b k) = j)
    (hq : s.skipWords b (s.sbs.toNat / 32 + 1) (j * s.sbs.toNat) (n - s.largeCount b k - s.smallCount b j) = (q, m)) :
    s.tableSelect b n = q + s.descend b q m := by
  subst hk hj
  exact congrArg (fun qm : Nat × Nat => qm.1 + s.descend b qm.1 qm.2) hq

/-- The last block of size `d` that starts within N ends at N or beyond. -/
theorem State.bitLen_le_end (s : State) {d : Nat} (hd : 1 ≤ d) : s.bitLen ≤ (s.bitLen / d + 1) * d :=
  (Nat.lt_mul_of_div_lt (Nat.lt_succ_self _) hd).le

section
variable {s : State} (hmod : s.lbs.toNat % s.sbs.toNat = 0)
include hmod

/-- Large block `k` starts with small block k × r. -/
theorem State.firstSmallBlock_start (k : Nat) : k * s.blockRatio * s.sbs.toNat = k * s.lbs.toNat := by
  rw [Nat.mul_assoc, State.blockRatio_mul_sbs hmod]

/-- The small blocks searched are those of large block `k` that have an entry. -/
theorem State.searchSmall_eq (hlbs : 1 ≤ s.lbs.toNat) (b : Bool) (k m : Nat) :
    s.searchSmall b k m = lastBelow (fun j => s.smallCount b j < m) 33 (k * s.blockRatio)
      (min ((k + 1) * s.blockRatio) (s.lastSb + 1)) := by
  have hratio := State.blockRatio_pos hmod hlbs
  have hend : min (k * s.blockRatio + s.blockRatio - 1) s.lastSb + 1 =
      min ((k + 1) * s.blockRatio) (s.lastSb + 1) := by
    rw [Nat.succ_mul]
    omega
  rw [State.searchSmall, hend]

/-- An occurrence in large block `k` is in one of its small blocks that have an entry. -/
theorem State.OccursIn.of_largeBlock {b : Bool} {n k : Nat} (hsbs : 1 ≤ s.sbs.toNat)
    (h : s.OccursIn b n (k * s.lbs.toNat) ((k + 1) * s.lbs.toNat)) :
    s.OccursIn b n (k * s.blockRatio * s.sbs.toNat)
      (min ((k + 1) * s.blockRatio) (s.lastSb + 1) * s.sbs.toNat) := by
  rw [← Nat.mul_min_mul_right, State.firstSmallBlock_start hmod, State.firstSmallBlock_start hmod]
  exact h.extend (min_le_min_left _ (s.bitLen_le_end hsbs))

end

section
variable {s : State} (h : s.Inv) (hi : s.index = .built)
include h hi

/-- cL(k) counts up to large block `k` (43_rank_select.md R174). -/
theorem State.Inv.largeCount_eq (b : Bool) {k : Nat} (hk : k ≤ s.lastLb) :
    s.largeCount b k = s.count b 0 (k * s.lbs.toNat) := by
  rw [State.largeCount, h.lbEntry_toNat hi hk, s.count_eq_ite b, Nat.sub_zero]

/-- cS(j) counts from the large block of small block `j` up to it (43_rank_select.md R174). -/
theorem State.Inv.smallCount_eq (b : Bool) {j : Nat} (hj : j ≤ s.lastSb) :
    s.smallCount b j = s.count b (j / s.blockRatio * s.lbs.toNat) (j * s.sbs.toNat) := by
  rw [State.smallCount, h.sbEntry_toNat hi hj, s.count_eq_ite b]

/-- Step 1 of R174 finds the large block of the n-th occurrence. -/
theorem State.Inv.occursIn_searchLarge {b : Bool} {n : Nat} (hn : 1 ≤ n) (htotal : n ≤ s.count b 0 s.bitLen) :
    s.searchLarge b n ≤ s.lastLb ∧
      s.OccursIn b n (s.searchLarge b n * s.lbs.toNat) ((s.searchLarge b n + 1) * s.lbs.toNat) := by
  obtain ⟨hlbs, -, -⟩ := h.blocks_valid (by simp [hi])
  have hall : s.OccursIn b n (0 * s.lbs.toNat) ((s.lastLb + 1) * s.lbs.toNat) := by
    constructor
    · rwa [Nat.zero_mul, State.count_self]
    · exact htotal.trans_eq (congrArg (s.count b 0) (Nat.min_eq_right (s.bitLen_le_end hlbs)).symm)
  have hfuel : s.lastLb + 1 - 0 ≤ 2 ^ 33 := by
    have hlast : s.lastLb ≤ s.nbits.toNat := Nat.div_le_self _ _
    omega
  obtain ⟨-, hlt, hin⟩ := hall.search (below := fun k => s.largeCount b k < n) hfuel fun k _ hk => by
    rw [decide_eq_true_iff, h.largeCount_eq hi b (Nat.le_of_lt_succ hk)]
  exact ⟨Nat.le_of_lt_succ hlt, hin⟩

/-- The entries of the two tables add up at each small block of large block `k`. -/
theorem State.Inv.largeCount_add_smallCount (b : Bool) {k j : Nat} (hk : k ≤ s.lastLb) (hlo : k * s.blockRatio ≤ j)
    (hhi : j < min ((k + 1) * s.blockRatio) (s.lastSb + 1)) :
    s.largeCount b k + s.smallCount b j = s.count b 0 (j * s.sbs.toNat) := by
  obtain ⟨-, -, hmod⟩ := h.blocks_valid (by simp [hi])
  obtain ⟨hnext, hlast⟩ := Nat.lt_min.1 hhi
  have hstart : k * s.lbs.toNat ≤ j * s.sbs.toNat := by
    rw [← State.firstSmallBlock_start hmod]
    exact Nat.mul_le_mul_right _ hlo
  rw [h.largeCount_eq hi b hk, h.smallCount_eq hi b (Nat.le_of_lt_succ hlast), Nat.div_eq_of_lt_le hlo hnext,
    ← s.count_split b (Nat.zero_le _) hstart]

/-- Step 2 of R174 finds the small block of the n-th occurrence, and leaves the ordinal in it. -/
theorem State.Inv.occursIn_searchSmall {b : Bool} {n k j : Nat} (hk : k ≤ s.lastLb)
    (hlarge : s.OccursIn b n (k * s.lbs.toNat) ((k + 1) * s.lbs.toNat))
    (hj : s.searchSmall b k (n - s.largeCount b k) = j) :
    s.OccursIn b n (j * s.sbs.toNat) ((j + 1) * s.sbs.toNat) ∧
      n - s.largeCount b k - s.smallCount b j = n - s.count b 0 (j * s.sbs.toNat) := by
  obtain ⟨hlbs, hsbs, hmod⟩ := h.blocks_valid (by simp [hi])
  have hfuel : min ((k + 1) * s.blockRatio) (s.lastSb + 1) - k * s.blockRatio ≤ 2 ^ 33 := by
    have hsmall : s.lastSb ≤ s.nbits.toNat := Nat.div_le_self _ _
    omega
  obtain ⟨hlo, hhi, hin⟩ := (State.OccursIn.of_largeBlock hmod hsbs hlarge).search
    (below := fun j => s.smallCount b j < n - s.largeCount b k) hfuel fun j hlo hhi => by
      rw [decide_eq_true_iff, Nat.lt_sub_iff_add_lt', h.largeCount_add_smallCount hi b hk hlo hhi]
  rw [← State.searchSmall_eq hmod hlbs, hj] at hlo hhi hin
  exact ⟨hin, by rw [Nat.sub_sub, h.largeCount_add_smallCount hi b hk hlo hhi]⟩

end

/-! #### The word skips and the descent (R174, R175) -/

/-- Words are skipped until the next one holds the occurrence. -/
theorem State.OccursIn.skipWords {s : State} {b : Bool} {n fuel q : Nat} (h : s.OccursIn b n q (q + 32 * fuel)) :
    ∃ q', s.skipWords b fuel q (n - s.count b 0 q) = (q', n - s.count b 0 q') ∧ s.OccursIn b n q' (q' + 32) := by
  induction fuel generalizing q with
  | zero => exact absurd h.start_lt (by omega)
  | succ fuel ih =>
    rw [State.skipWords]
    by_cases hlt : s.count b 0 (q + 32) < n
    · rw [if_pos ((h.maskedCount_lt_iff (Nat.le_add_right _ _)).2 hlt),
        h.sub_maskedCount (Nat.le_add_right _ _) hlt]
      exact ih ((by omega : q + 32 * (fuel + 1) = q + 32 + 32 * fuel) ▸ h.upper hlt)
    · rw [if_neg ((h.maskedCount_lt_iff (Nat.le_add_right _ _)).not.2 hlt)]
      exact ⟨q, rfl, h.lower (Nat.le_of_not_lt hlt)⟩

/-- One step of the descent halves the sub-word that holds the occurrence. -/
theorem State.OccursIn.descendStep {s : State} {b : Bool} {n q p width : Nat}
    (h : s.OccursIn b n (q + p) (q + p + 2 * width)) :
    ∃ p', s.descendStep b q (p, n - s.count b 0 (q + p)) width = (p', n - s.count b 0 (q + p')) ∧
      s.OccursIn b n (q + p') (q + p' + width) := by
  have hmid : q + p ≤ q + p + width := Nat.le_add_right _ _
  rw [State.descendStep]
  by_cases hlt : s.count b 0 (q + p + width) < n
  · refine ⟨p + width, ?_, ?_⟩
    · dsimp only
      rw [if_pos ((h.maskedCount_lt_iff hmid).2 hlt), h.sub_maskedCount hmid hlt, Nat.add_assoc]
    · exact (by omega : q + p + 2 * width = q + (p + width) + width) ▸ h.upper (Nat.add_assoc q p width ▸ hlt)
  · exact ⟨p, if_neg ((h.maskedCount_lt_iff hmid).not.2 hlt), h.lower (Nat.le_of_not_lt hlt)⟩

/-- The words of a small block reach its end. -/
theorem State.smallBlock_end_le_words (s : State) (j : Nat) :
    min ((j + 1) * s.sbs.toNat) s.bitLen ≤ j * s.sbs.toNat + 32 * (s.sbs.toNat / 32 + 1) := by
  rw [Nat.succ_mul]
  omega

/-- The descent ends at the occurrence. -/
theorem State.OccursIn.descend {s : State} {b : Bool} {n q : Nat} (h : s.OccursIn b n q (q + 32)) :
    IsLeast { p | p < s.nbits.toNat ∧ s.count b 0 (p + 1) = n } (q + s.descend b q (n - s.count b 0 q)) := by
  obtain ⟨p₁, e₁, h₁⟩ := State.OccursIn.descendStep (p := 0) (width := 16) h
  obtain ⟨p₂, e₂, h₂⟩ := h₁.descendStep (width := 8)
  obtain ⟨p₃, e₃, h₃⟩ := h₂.descendStep (width := 4)
  obtain ⟨p₄, e₄, h₄⟩ := h₃.descendStep (width := 2)
  obtain ⟨p₅, e₅, h₅⟩ := h₄.descendStep (width := 1)
  have hdescend : s.descend b q (n - s.count b 0 q) = p₅ := by
    simp only [State.descend, List.foldl_cons, List.foldl_nil]
    rw [Nat.add_zero] at e₁
    rw [e₁, e₂, e₃, e₄, e₅]
  rw [hdescend]
  exact h₅.isLeast

/-- Settles O31: each stage of the search keeps the n-th occurrence in its range, and the part of `n` that is left
there. -/
theorem tableSelectEqualsSelect : Obligations.TableSelectEqualsSelect := by
  intro s b n h hi hn htotal
  simp only [← State.count_eq_spec] at htotal ⊢
  obtain ⟨hk, hlarge⟩ := h.occursIn_searchLarge hi hn htotal
  obtain ⟨hsmall, hleft⟩ := h.occursIn_searchSmall hi hk hlarge rfl
  obtain ⟨q, hskip, hword⟩ := (hsmall.extend (s.smallBlock_end_le_words _)).skipWords
  rw [← hleft] at hskip
  rw [State.tableSelect_of_stages rfl rfl hskip]
  exact hword.descend

end Sys2Proof.Machine

/-! ### Proofs: the exceptions (60_exceptions.md): what a failing command does -/

namespace Sys2Proof.Machine

/-- A command that reports a cause has raised it, and its row lists it (60_exceptions.md R202, R204, R207). -/
theorem exec_eq_raiseError {i : Instr} {s t : State} {c : ErrorCause} (hx : exec i s = .next t)
    (he : t.error = some c) : c ∈ Spec.causesOf i ∧ t = s.raiseError c := by
  rcases exec_next_cases hx with ⟨c', hc, rfl⟩ | ⟨hnone, -⟩
  · obtain rfl : c' = c := Option.some.inj he
    exact ⟨hc, rfl⟩
  · simp [hnone] at he

/-- Settles O33: what reports a cause is an error completion, over no change. -/
theorem failedCommandChangesOnlyStatus : Obligations.FailedCommandChangesOnlyStatus :=
  fun _ _ _ _ hx he => (exec_eq_raiseError hx he).2

/-- Settles O34: the cause reported is the one raised. -/
theorem commandsRaiseOnlyTheirCauses : Obligations.CommandsRaiseOnlyTheirCauses :=
  fun _ _ _ _ hx he => (exec_eq_raiseError hx he).1

/-- The numbers of each cause and its kind are those of the tables of 60_exceptions.md R201 and R202. -/
theorem ErrorCause.codes_eq (c : ErrorCause) : (c.kind.code.toNat, c.code.toNat) = Spec.errorNumbers c := by
  cases c <;> rfl

/-- Settles O40: the two fields of STATUS read as ERRCODE and ERRCAUSE, and those are the codes of the error held. -/
theorem statusReportsErrorNumbers : Obligations.StatusReportsErrorNumbers := by
  intro s
  obtain ⟨-, hcode, hcause, -, -⟩ := s.statusWord_fields
  rw [hcode, hcause, State.errcode, State.errcause]
  refine ⟨fun he => ?_, fun c he => ?_⟩
  · rw [he]
    exact ⟨rfl, rfl⟩
  · rw [he]
    exact c.codes_eq

end Sys2Proof.Machine

/-! ### Proofs: the exceptions (60_exceptions.md): acceptance, dropped writes and OVERRUN -/

namespace Sys2Proof.Machine

/-- Settles O45: the write is one acceptance, which clears DONE and with it IRQ. -/
theorem commandWriteIsAcceptedWhileIdle : Obligations.CommandWriteIsAcceptedWhileIdle := by
  intro s w rest hr hb hs
  have haccept : s.writeReg .cmd w = s.accept w := if_neg (by simp [hb])
  refine ⟨(s.accept w).afterTurn rest, haccept ▸ step_hostWrite_reg .cmd hr hs, rfl, ?_⟩
  simp [State.irq]

/-- The registers whose host writes a busy block drops (60_exceptions.md R212). -/
def commandRegs : List HostReg := [.cmd, .opa, .opb, .lbscfg, .sbscfg]

theorem commandRegs_offsets : commandRegs.map HostReg.offset = [0x00, 0x04, 0x08, 0x0C, 0x10] := rfl

/-- A busy block drops the write (60_exceptions.md R212). -/
theorem State.writeReg_of_busy {s : State} {r : HostReg} (hb : s.busy = true) (hr : r ∈ commandRegs) (v : Word) :
    s.writeReg r v = s.dropWrite := by
  simp only [commandRegs, List.mem_cons, List.not_mem_nil, or_false] at hr
  rcases hr with rfl | rfl | rfl | rfl | rfl <;> exact if_pos hb

/-- What a host write to a register makes of OVERRUN (60_exceptions.md R212). -/
theorem State.writeReg_overrun_cases (s : State) (r : HostReg) (v : Word) :
    (s.writeReg r v).overrun = s.overrun ∨
    (r = .status ∧ (s.writeReg r v).overrun = (s.overrun && !v.getLsbD 3)) ∨
    (s.busy = true ∧ r ∈ commandRegs ∧ (s.writeReg r v).overrun = true) := by
  cases r with
  | cmd | opa | opb | lbscfg | sbscfg =>
    cases hb : s.busy with
    | true => exact .inr (.inr ⟨rfl, by decide, by rw [State.writeReg_of_busy hb (by decide)]; rfl⟩)
    | false => exact .inl (by simp [State.writeReg, hb])
  | status => exact .inr (.inl ⟨rfl, rfl⟩)
  | ctrl | result | lenbytes | nbits | lbs | sbs | id | maxbytes | lbcap | sbcap => exact .inl rfl

/-- A host access leaves OVERRUN alone, unless it writes a register (20_memory.md R64, R66). -/
theorem State.hostAccess_overrun_cases {s t : State} {a : HostAccess} (h : s.hostAccess a = .next t) :
    t.overrun = s.overrun ∨
    ∃ r v, Turn.host a = Spec.hostAt s r.offset (.write v) ∧ t = s.writeReg r v := by
  rcases s.hostAccess_cases a with ⟨-, e⟩ | ⟨-, -, e⟩ | ⟨-, -, -, e⟩ | ⟨-, -, -, -, e⟩ | ⟨v, -, -, hwf, hv, e⟩ <;>
    cases h.symm.trans e
  · exact .inl rfl
  · exact .inl rfl
  · rcases s.writeOffset_cases (a.addr - s.params.baseAddr) v with ⟨r, hoff, hreg⟩ | ⟨-, hnone⟩
    · obtain ⟨hwidth, hbase, -⟩ := hwf
      have haddr : a.addr = s.params.baseAddr + r.offset := by omega
      refine .inr ⟨r, v, ?_, hreg⟩
      rw [Spec.hostAt, ← haddr, ← hwidth, ← hv]
    · exact .inl (congrArg State.overrun hnone)

/-- What a step makes of OVERRUN: only an asserted reset, a write to STATUS and a dropped write can change it
(60_exceptions.md R212, 70_reset_and_hazards.md R240). -/
theorem step_overrun_cases {s t : State} (h : step s = .next t) :
    t.overrun = s.overrun ∨
    (∃ rest, s.schedule = .resetAssert :: rest ∧ t.overrun = false) ∨
    (∃ v rest, s.schedule = Spec.hostAt s 0x18 (.write v) :: rest ∧ t.overrun = (s.overrun && !v.getLsbD 3)) ∨
    (s.busy = true ∧ t.overrun = true ∧ ∃ rest off v, off ∈ [0x00, 0x04, 0x08, 0x0C, 0x10] ∧
      s.schedule = Spec.hostAt s off (.write v) :: rest) := by
  rcases step_next_cases h with ⟨rest, -, he⟩ | ⟨a, rest, hs, ha⟩ | ⟨rest, hs, rfl⟩ | ⟨rest, -, rfl⟩
  · exact .inl (State.engineTurn_sameHost he).overrun
  · rcases State.hostAccess_overrun_cases ha with hkept | ⟨r, v, haccess, rfl⟩
    · exact .inl hkept
    · rw [haccess] at hs
      rcases (s.afterTurn rest).writeReg_overrun_cases r v with hkept | ⟨rfl, hw⟩ | ⟨hb, hr, hset⟩
      · exact .inl hkept
      · exact .inr (.inr (.inl ⟨v, rest, hs, hw⟩))
      · exact .inr (.inr (.inr ⟨hb, hset, rest, r.offset, v, List.mem_map_of_mem hr, hs⟩))
  · exact .inr (.inl ⟨rest, hs, rfl⟩)
  · exact .inl rfl

/-- Settles O46: each write by its register's rule; what changes OVERRUN, by the four cases of a step. -/
theorem droppedWriteSetsOverrun : Obligations.DroppedWriteSetsOverrun := by
  refine ⟨fun s off v rest hr hb hs => ⟨fun hoff => ?_, ?_, ?_⟩, fun s t h hset hclear => ?_, fun s t h hclear hset => ?_⟩
  · rw [← commandRegs_offsets] at hoff
    obtain ⟨r, hmem, rfl⟩ := List.mem_map.1 hoff
    rw [step_hostWrite_reg r hr hs, State.writeReg_of_busy hb hmem]
    rfl
  · rintro rfl
    exact step_hostWrite_reg .status hr hs
  · rintro rfl
    exact step_hostWrite_reg .ctrl hr hs
  · rcases step_overrun_cases h with hkept | ⟨rest, hs, -⟩ | ⟨v, rest, hs, hw⟩ | ⟨-, hset', -⟩
    · simp [hkept, hset] at hclear
    · exact ⟨rest, .inl hs⟩
    · exact ⟨rest, .inr ⟨v, by simpa [hset, hclear] using hw, hs⟩⟩
    · simp [hset'] at hclear
  · rcases step_overrun_cases h with hkept | ⟨-, -, hclear'⟩ | ⟨v, -, -, hw⟩ | ⟨hb, -, hdropped⟩
    · simp [hkept, hclear] at hset
    · simp [hclear'] at hset
    · simp [hw, hclear] at hset
    · exact ⟨hb, hdropped⟩

end Sys2Proof.Machine

/-! ### Proofs: reset and hazards (70_reset_and_hazards.md): reset (R240) -/

namespace Sys2Proof.Machine

/-- During reset a host access that starts in the window is refused (70_reset_and_hazards.md R240). -/
theorem step_hostAt_of_inReset {s : State} {off : Nat} {action : HostAction} {rest : List Turn}
    (hr : s.inReset = true) (hoff : off < 0x100) (hs : s.schedule = Spec.hostAt s off action :: rest) :
    step s = .refused .hostAccessDuringReset := by
  refine (step_eq_refused_iff s _).2 ⟨_, rest, hs, ?_⟩
  refine (State.hostAccess_eq_refused_iff _ _ _).2 ⟨?_, .inl ⟨hr, rfl⟩⟩
  simp only [HostAccess.InWindow, State.afterTurn_params]
  omega

/-- Settles O53: the state reached is `assertReset` of what the turn found, which keeps the parameters, and so the
window; the end of reset takes back only the mark that reset is on. -/
theorem resetAbortsAndRestores : Obligations.ResetAbortsAndRestores := by
  intro s rest hs
  refine ⟨(s.afterTurn rest).assertReset, step_cons hs, rfl, fun off action more hoff hrest => ?_, fun more hrest => ?_⟩
  · exact step_hostAt_of_inReset (s := (s.afterTurn rest).assertReset) rfl hoff hrest
  · exact step_cons (s := (s.afterTurn rest).assertReset) hrest

end Sys2Proof.Machine

/-! ### Proofs: reset and hazards (70_reset_and_hazards.md): who changes the host's registers (R241) -/

namespace Sys2Proof.Machine

/-- A host access that is no write changes at most the record of reads (20_memory.md R66). -/
theorem State.hostAccess_of_not_write {s t : State} {a : HostAccess} (hread : ∀ v, a.action ≠ .write v)
    (h : s.hostAccess a = .next t) : t = { s with readLog := t.readLog } := by
  rcases s.hostAccess_cases a with ⟨-, e⟩ | ⟨-, -, e⟩ | ⟨-, -, -, e⟩ | ⟨-, -, -, -, e⟩ | ⟨v, -, -, -, hv, -⟩
  · cases h.symm.trans e
    rfl
  · cases h.symm.trans e
  · cases h.symm.trans e
  · cases h.symm.trans e
    rfl
  · exact absurd hv (hread v)

/-- Settles O54: what is left are the engine's turn, which keeps the host's registers, a host read and the end of
reset. -/
theorem onlyHostAndResetChangeHostRegisters : Obligations.OnlyHostAndResetChangeHostRegisters := by
  intro s t h hnoReset hnoWrite
  rcases step_next_cases h with ⟨rest, -, he⟩ | ⟨a, rest, hs, ha⟩ | ⟨rest, hs, -⟩ | ⟨rest, -, rfl⟩
  · have hhost := State.engineTurn_sameHost he
    exact ⟨hhost.opa, hhost.opb, hhost.lbscfg, hhost.sbscfg, hhost.ie, hhost.overrun⟩
  · rw [State.hostAccess_of_not_write (fun v hv => hnoWrite a v rest hv hs) ha]
    exact ⟨rfl, rfl, rfl, rfl, rfl, rfl⟩
  · exact absurd hs (hnoReset rest)
  · exact ⟨rfl, rfl, rfl, rfl, rfl, rfl⟩

end Sys2Proof.Machine

/-! ### Proofs: reset and hazards (70_reset_and_hazards.md): progress (R250, R251) -/

namespace Sys2Proof.Machine

/-- The engine's turn on a busy block completes the command it holds (60_exceptions.md R206, R207). -/
theorem State.engineTurn_done {s t : State} (hb : s.busy = true) (h : s.engineTurn = .next t) : t.done = true := by
  rcases s.engineTurn_completes with ⟨hidle, -⟩ | ⟨-, c, e⟩ | ⟨-, i, v, -, e⟩
  · exact absurd hb (by simp [hidle])
  · cases h.symm.trans e
    rfl
  · cases h.symm.trans e
    rfl

/-- A turn of a busy block that is no reset completes its command, or is taken from the schedule and leaves the command
in progress: with no turn left the engine moves (70_reset_and_hazards.md R251, log entry 2). -/
theorem step_of_busy_cases {s t : State} (hb : s.busy = true) (hturn : Turn.resetAssert ∉ s.schedule)
    (h : step s = .next t) :
    t.cmd = s.cmd ∧ (t.busy = false ∧ t.done = true ∨ t.busy = true ∧ s.schedule ≠ []) := by
  rcases step_next_cases h with ⟨rest, -, he⟩ | ⟨a, rest, hs, ha⟩ | ⟨rest, hs, -⟩ | ⟨rest, hs, rfl⟩
  · have hdone : t.done = true := State.engineTurn_done (s := s.afterTurn rest) hb he
    exact ⟨(State.engineTurn_sameHost he).cmd, .inl ⟨State.engineTurn_not_busy he, hdone⟩⟩
  · have hhold : State.HoldsWhileBusy (s.afterTurn rest) t := State.hostAccess_holdsWhileBusy hb ha
    rw [hhold]
    exact ⟨rfl, .inr ⟨hb, by simp [hs]⟩⟩
  · exact absurd (hs ▸ List.mem_cons_self) hturn
  · exact ⟨rfl, .inr ⟨hb, by simp [hs]⟩⟩

/-- A command is in progress outside reset, and the turns to come are defined and hold no reset. -/
structure State.InProgress (s : State) : Prop where
  busy : s.busy = true
  running : s.inReset = false
  turns : ∀ t ∈ s.schedule, t ≠ .resetAssert ∧ Turn.Defined s.params t

/-- With a command in progress a step answers, and completes the command or leaves it in progress with one turn fewer. -/
theorem State.InProgress.step {s : State} (h : s.InProgress) :
    ∃ t, Machine.step s = .next t ∧ t.cmd = s.cmd ∧
      (t.busy = false ∧ t.done = true ∨ t.InProgress ∧ s.schedule.length = t.schedule.length + 1) := by
  have hturn : Turn.resetAssert ∉ s.schedule := fun hmem => (h.turns _ hmem).1 rfl
  obtain ⟨t, ht⟩ := step_answers_of_defined h.running fun x hx => (h.turns x hx).2
  obtain ⟨hcmd, hdone | ⟨hbusy, hmore⟩⟩ := step_of_busy_cases h.busy hturn ht
  · exact ⟨t, ht, hcmd, .inl hdone⟩
  · obtain ⟨hp, htail⟩ := step_params_schedule ht
    have hpos : 0 < s.schedule.length := List.length_pos_iff.2 hmore
    refine ⟨t, ht, hcmd, .inr ⟨⟨hbusy, step_inReset_eq_false ht h.running hturn, fun x hx => ?_⟩, ?_⟩⟩
    · rw [hp]
      exact h.turns x (List.mem_of_mem_tail (htail ▸ hx))
    · rw [htail, List.length_tail]
      omega

/-- A command in progress completes within one step more than there are turns, by induction on the number of turns
(70_reset_and_hazards.md R251). -/
theorem State.InProgress.completes {s : State} (h : s.InProgress) :
    ∃ n t, n ≤ s.schedule.length + 1 ∧ Host.Core.run Sys2Proof.core n s = .next t ∧
      t.busy = false ∧ t.done = true ∧ t.cmd = s.cmd := by
  obtain ⟨t, ht, hcmd, ⟨hidle, hdone⟩ | ⟨hnext, hfewer⟩⟩ := h.step
  · exact ⟨1, t, by omega, run_succ_of_next ht 0, hidle, hdone, hcmd⟩
  · obtain ⟨n, u, hn, hu, hidle, hdone, hcmd'⟩ := hnext.completes
    exact ⟨n + 1, u, by omega, (run_succ_of_next ht n).trans hu, hidle, hdone, hcmd'.trans hcmd⟩
termination_by s.schedule.length

/-- Settles O57: such a block has a command in progress. -/
theorem acceptedCommandCompletes : Obligations.AcceptedCommandCompletes :=
  fun _ hb hr hturns => State.InProgress.completes ⟨hb, hr, hturns⟩

end Sys2Proof.Machine
